-- ==== Sys2Proof/Word.lean ====
section
/-! DEFINITION. The words of the machine: a byte, a MAC address, an EtherType code, the 14-byte wire image. -/

namespace Sys2Proof

/-- A byte is 8 bits (R12). -/
abbrev Byte := BitVec 8

/-- A MAC address as one 48-bit value, byte 0 most significant (R26, R100). -/
abbrev Mac := BitVec 48

/-- An EtherType code (R27). -/
abbrev EtCode := BitVec 16

/-- The 14-byte wire image as one 112-bit value, byte 0 most significant (R30). -/
abbrev Wire := BitVec 112

/-- `MAC_LEN` (R10). -/
abbrev macLen : Nat := 6

/-- `ET_LEN` (R10). -/
abbrev etLen : Nat := 2

/-- `HDR_LEN = MAC_LEN + MAC_LEN + ET_LEN` (R10). -/
abbrev hdrLen : Nat := 14

end Sys2Proof
end

