-- ==== Sys2Proof/Syntax.lean ====
section
/-! DEFINITION. The instruction set: one constructor per row of the opcode table. -/

namespace Sys2Proof

/-- The eleven commands (R86) and the four wire-format rows. A command has no operand field (R85); a wire-format row
carries the fields of its layout (R80, R81, R88). -/
inductive Instr where
  | hdec14
  | henc14
  | hdec
  | henc
  | fdec
  | fenc
  | flen
  | odec
  | oenc
  | toown
  | olen
  | eth2Header (dst src : Mac) (et : EtCode)
  | eth2Frame (dst src : Mac) (et : EtCode) (payload : List Byte)
  | etypeIpv6
  | etypeUnknown (raw : EtCode)
  deriving DecidableEq, Repr

end Sys2Proof
end

