-- ==== Sys2Proof/WellFormed.lean ====
section
/-! DEFINITION. Which instruction terms are well-formed. -/

namespace Sys2Proof

/-- A frame has at least one payload byte (R81 "N ≥ 1 for a valid Frame"); the catch-all row has lower priority than
the known code's row, so its code is not 0x86DD (R88). Every command and every header is well-formed (R80, R85). -/
def Instr.wellFormed : Instr → Bool
  | .hdec14 => true
  | .henc14 => true
  | .hdec => true
  | .henc => true
  | .fdec => true
  | .fenc => true
  | .flen => true
  | .odec => true
  | .oenc => true
  | .toown => true
  | .olen => true
  | .eth2Header _ _ _ => true
  | .eth2Frame _ _ _ payload => !payload.isEmpty
  | .etypeIpv6 => true
  | .etypeUnknown raw => raw != 0x86DD#16

end Sys2Proof
end

