-- ==== Sys2Proof/Decode.lean ====
section
/-! DEFINITION. The byte-order helpers, the codec's pure functions on field types (40_field_types, 41_header_codec
section 1), the decoder on bytes of each format, and the encoder. -/

namespace Sys2Proof

/-- `be16(h, l)`: `h` is the more significant byte (R12, R82). -/
def be16 (h l : Byte) : EtCode := h ++ l

/-- `hi8(v) = v[15:8]` (R12). -/
def hi8 (v : EtCode) : Byte := v.extractLsb' 8 8

/-- `lo8(v) = v[7:0]` (R12). -/
def lo8 (v : EtCode) : Byte := v.extractLsb' 0 8

/-- Byte `k` of a byte sequence, for `k` below its length; every use is on a sequence long enough. -/
def byteAt (b : List Byte) (k : Nat) : Byte := b.getD k 0#8

/-- `slice(b, i, n)` (R12). -/
def slice (b : List Byte) (i n : Nat) : List Byte := (b.drop i).take n

/-- `mac_decode(m) = m[0] :: m[1] :: m[2] :: m[3] :: m[4] :: m[5]`, on six bytes (R83, R100). -/
def macDecode (m : List Byte) : Mac :=
  byteAt m 0 ++ byteAt m 1 ++ byteAt m 2 ++ byteAt m 3 ++ byteAt m 4 ++ byteAt m 5

/-- `mac_encode(a)[k] = a[47-8k : 40-8k]` (R101). -/
def macEncode (a : Mac) : List Byte :=
  (List.range macLen).map fun k => a.extractLsb' (40 - 8 * k) 8

/-- A Header value: destination, source, EtherType code (R25). -/
structure Header where
  dst : Mac
  src : Mac
  et  : EtCode
  deriving DecidableEq, Repr

/-- `hdr_unpack`, on 14 bytes (R110). -/
def hdrUnpack (b : List Byte) : Header :=
  { dst := macDecode (slice b 0 macLen)
    src := macDecode (slice b 6 macLen)
    et  := be16 (byteAt b 12) (byteAt b 13) }

/-- `hdr_pack(dst, src, et) = mac_encode(dst) ++ mac_encode(src) ++ [hi8(et), lo8(et)]` (R111). -/
def hdrPack (h : Header) : List Byte :=
  macEncode h.dst ++ macEncode h.src ++ [hi8 h.et, lo8 h.et]

/-- The 14 bytes of a wire image: `b[k] = w[111-8k : 104-8k]` (R30, R113). -/
def wireBytes (w : Wire) : List Byte :=
  (List.range hdrLen).map fun k => w.extractLsb' (104 - 8 * k) 8

/-- The number a byte sequence spells, its first byte most significant. -/
def natOfBytes (b : List Byte) : Nat := b.foldl (fun acc x => acc * 256 + x.toNat) 0

/-- `b[0] :: b[1] :: ... :: b[13]`, on 14 bytes (R114). -/
def wireImage (b : List Byte) : Wire := BitVec.ofNat 112 (natOfBytes b)

/-- `n` bytes of a number, the most significant of them first. -/
def bytesOfNat (n v : Nat) : List Byte :=
  (List.range n).map fun k => BitVec.ofNat 8 (v / 256 ^ (n - 1 - k))

/-- The formats of the opcode table. A word's format is told by where the host writes it, not by its bits: CMD, H_ET,
HWIRE, or a buffer of M. -/
inductive Format where
  | cmd8
  | etype16
  | wire112
  | wireFrame
  deriving DecidableEq, Repr

/-- Why a byte sequence is no instruction of a format. -/
inductive Reject where
  /-- the sequence has not the format's length -/
  | wrongLength
  /-- a command word with bits 7:4 not 0 (R85, R87) -/
  | reservedBits
  /-- a command word with OP in 0x0, 0xC to 0xF (R87) -/
  | reservedOp
  deriving DecidableEq, Repr

/-- Field RSV of a command word, bits 7:4 (R85). -/
def rsvField (c : Byte) : BitVec 4 := c.extractLsb' 4 4

/-- Field OP of a command word, bits 3:0 (R85). -/
def opField (c : Byte) : BitVec 4 := c.extractLsb' 0 4

/-- The operation codes of R86. -/
def decodeOp (op : BitVec 4) : Except Reject Instr :=
  match op.toNat with
  | 0x1 => .ok .hdec14
  | 0x2 => .ok .henc14
  | 0x3 => .ok .hdec
  | 0x4 => .ok .henc
  | 0x5 => .ok .fdec
  | 0x6 => .ok .fenc
  | 0x7 => .ok .flen
  | 0x8 => .ok .odec
  | 0x9 => .ok .oenc
  | 0xA => .ok .toown
  | 0xB => .ok .olen
  | _ => .error .reservedOp

/-- The command a command word selects (R85 to R87). -/
def decodeCommand (c : Byte) : Except Reject Instr :=
  if rsvField c = 0#4 then decodeOp (opField c) else .error .reservedBits

/-- The row an EtherType code belongs to: the known code's row before the catch-all (R88). -/
def decodeEtype (c : EtCode) : Instr :=
  if c = 0x86DD#16 then .etypeIpv6 else .etypeUnknown c

/-- The instruction a byte sequence of a format is (R80, R81, R85, R88). Total; what is no instruction is rejected by
name. A frame's length is not encoded in it: the payload is everything after the header (R84). -/
def decode : Format → List Byte → Except Reject Instr
  | .cmd8, b =>
    if b.length = 1 then decodeCommand (byteAt b 0) else .error .wrongLength
  | .etype16, b =>
    if b.length = etLen then .ok (decodeEtype (be16 (byteAt b 0) (byteAt b 1))) else .error .wrongLength
  | .wire112, b =>
    if b.length = hdrLen then
      let h := hdrUnpack b
      .ok (.eth2Header h.dst h.src h.et)
    else .error .wrongLength
  | .wireFrame, b =>
    if hdrLen < b.length then
      let h := hdrUnpack b
      .ok (.eth2Frame h.dst h.src h.et (b.drop hdrLen))
    else .error .wrongLength

/-- The format of an instruction's row in the opcode table. -/
def Instr.format : Instr → Format
  | .hdec14 => .cmd8
  | .henc14 => .cmd8
  | .hdec => .cmd8
  | .henc => .cmd8
  | .fdec => .cmd8
  | .fenc => .cmd8
  | .flen => .cmd8
  | .odec => .cmd8
  | .oenc => .cmd8
  | .toown => .cmd8
  | .olen => .cmd8
  | .eth2Header _ _ _ => .wire112
  | .eth2Frame _ _ _ _ => .wireFrame
  | .etypeIpv6 => .etype16
  | .etypeUnknown _ => .etype16

/-- The bytes of an instruction: the command words of R86, the wire layouts of R80 and R81, the big-endian code of
R52. -/
def encode : Instr → List Byte
  | .hdec14 => [0x01#8]
  | .henc14 => [0x02#8]
  | .hdec => [0x03#8]
  | .henc => [0x04#8]
  | .fdec => [0x05#8]
  | .fenc => [0x06#8]
  | .flen => [0x07#8]
  | .odec => [0x08#8]
  | .oenc => [0x09#8]
  | .toown => [0x0A#8]
  | .olen => [0x0B#8]
  | .eth2Header dst src et => hdrPack ⟨dst, src, et⟩
  | .eth2Frame dst src et payload => hdrPack ⟨dst, src, et⟩ ++ payload
  | .etypeIpv6 => [0x86#8, 0xDD#8]
  | .etypeUnknown raw => [hi8 raw, lo8 raw]

/-- The format whose rows the opcode table gives `nbits` bits; a frame with a payload is longer than its row's fixed
112-bit part. -/
def formatOfBits (nbits : Nat) : Option Format :=
  if nbits = 8 then some .cmd8
  else if nbits = 16 then some .etype16
  else if nbits = 112 then some .wire112
  else if 112 < nbits ∧ nbits % 8 = 0 then some .wireFrame
  else none

/-- The bytes of an opcode-table word, in the order the wire carries them. The first word is the format's fixed part
(8, 16 or 112 bits, the most significant byte first: R52, R80); the payload bytes of a frame are later words, counting
on from bit 112 (log entry 6). -/
def tableBytes (nbits w : Nat) : List Byte :=
  if nbits ≤ 112 then bytesOfNat (nbits / 8) w
  else bytesOfNat hdrLen (w % 2 ^ 112) ++
    (List.range (nbits / 8 - hdrLen)).map fun i => BitVec.ofNat 8 (w / 2 ^ (112 + 8 * i))

/-- The instruction the decoder reads from an instruction whose bits are `w`, numbered as the opcode table numbers
them. -/
def decodeTableWord (nbits w : Nat) : Option Instr :=
  if w < 2 ^ nbits then
    match formatOfBits nbits with
    | some f => (decode f (tableBytes nbits w)).toOption
    | none => none
  else none

end Sys2Proof
end

