-- ==== Sys2Proof/Config.lean ====
section
/-! DEFINITION. What an implementation fixes: the parameters of R11 with their constraints, the instance the spec's
test vectors use, and the one free value, the byte the platform left in M. -/

namespace Sys2Proof

/-- A contiguous part of the populated set `MEM` (R11, R71). -/
structure Region where
  base : Nat
  size : Nat
  deriving DecidableEq, Repr

/-- The name of a protocol identifier: the source shows one, `IPv6` (R104); every other name is the table's own. -/
inductive ProtocolName where
  | ipv6
  | other (tag : Nat)
  deriving DecidableEq, Repr

/-- One known EtherType code with its identifier's name; the identifier index is the row's place in the table (R104). -/
structure KnownEt where
  code : EtCode
  name : ProtocolName
  deriving DecidableEq, Repr

/-- The parameters of R11. `mem` lists the regions whose union is `MEM`; row `i` of `knownEt` is the code whose
identifier index is `i`, so that the map is injective and `K` is the table's length (DEDUCED, log entry 8). -/
structure Params where
  aw      : Nat
  lw      : Nat
  mem     : List Region
  ownCap  : Nat
  knownEt : List KnownEt
  deriving DecidableEq, Repr

/-- The constraints of R11 and R104. -/
abbrev Params.Valid (p : Params) : Prop :=
  4 ≤ p.aw ∧ 4 ≤ p.lw ∧ (∀ r ∈ p.mem, r.base + r.size ≤ 2 ^ p.aw) ∧ p.ownCap ≤ 2 ^ p.lw - 1 ∧
    (p.knownEt.map KnownEt.code).Nodup ∧ KnownEt.mk 0x86DD#16 .ipv6 ∈ p.knownEt

/-- The instance of 95_test_vectors.md section 0. DESIGN CHOICE (log entry 2): State.reset holds it; every statement is
about all parameters. -/
def Config.reference : Params :=
  { aw := 16, lw := 16, mem := [⟨0, 65536⟩], ownCap := 65535, knownEt := [⟨0x86DD#16, .ipv6⟩] }

/-- The byte of M at an address that nothing has listed: whatever the platform left there (R173, U16 `any value`).
A FREE VALUE: it has no body, so no proof can say what it is (log entry 3). -/
opaque Config.launchByte : Nat → Byte

end Sys2Proof
end

