-- ==== Sys2Proof/Machine/State.lean ====
section
/-! DEFINITION. The state of the machine as plain data (10_state.md), what the host may ask of it, and why a step can
stop. -/

namespace Sys2Proof.Machine

/-- M as a list of (address, byte) pairs in one canonical form: addresses strictly rising. An address not listed holds
the byte the platform left there, which is no listed value (`Config.launchByte`, log entry 3). -/
abbrev Memory := List Host.Cell

/-- A host operation (R91, 44_host_interface.md). A register is named by its number, a value is a number: both as the
host gives them, checked when the operation is performed. -/
inductive HostOp where
  /-- `WR reg, v` (R141, R146) -/
  | wr (reg v : Nat)
  /-- `RD reg` (R142) -/
  | rd (reg : Nat)
  /-- `MW addr, b` (R143) -/
  | mw (addr : Nat) (b : List Byte)
  /-- `MR addr, n` (R143) -/
  | mr (addr n : Nat)
  /-- `OLOAD b` (R144) -/
  | oload (b : List Byte)
  /-- `OR i` (R145) -/
  | ownRead (i : Nat)
  /-- `RESET` (R147) -/
  | reset
  deriving DecidableEq, Repr

/-- What a reading operation returned to the host: a register's value (R142), bytes of M (R143), a byte of OWN (R145). -/
inductive Reply where
  | none
  | value (v : Nat)
  | bytes (b : List Byte)
  | byte (b : Byte)
  deriving DecidableEq, Repr

/-- The whole state (R20, R21): the stored registers, OWN and M; beside them the parameters of R11, which no step
writes, and the model's own record of the host, `script` (the operations it has still to issue, R146) and `reply`.
ET_CLASS and OWN_LEN are views and CMD stores nothing, so none of the three is a field. A register whose width is a
parameter is a number; `State.Inv` (Safety.lean) says that it fits the width (log entry 4). -/
@[ext]
structure State where
  params  : Params
  script  : List HostOp
  reply   : Reply
  status  : BitVec 8
  srcBase : Nat
  srcLen  : Nat
  dstBase : Nat
  dstCap  : Nat
  payBase : Nat
  payLen  : Nat
  hDst    : Mac
  hSrc    : Mac
  hEt     : EtCode
  resLen  : Nat
  hwire   : Wire
  own     : List Byte
  mem     : Memory
  deriving DecidableEq, Repr

/-- The hardware has no fault: the three conditions are ordinary results (R15, R156) and an operation without a meaning
is refused (R16). So no step of the model answers a fault, and the type has no constructor (DEDUCED, log entry 9). -/
inductive Fault where
  deriving DecidableEq, Repr

/-- The refusals of R158, a closed list; beside them the host pipeline's own mark for an instruction without a meaning. -/
inductive Refusal where
  /-- raised by exec for an instruction that has no meaning yet; no arm answers it. Safe. -/
  | notModelled (mnemonic : String)
  /-- raised by HDEC, HENC, FDEC, FENC, ODEC, OENC, TOOWN, MW, MR (and ETH2.FRAME, which is an MW): a descriptor the
  operation uses is not well-formed (R60, R158). Safe: the spec defines no outcome. -/
  | badDescriptor
  /-- raised by FENC: the payload range meets the destination range (R63, R158). Safe: the spec defines no outcome. -/
  | overlap
  /-- raised by ODEC, TOOWN, OLOAD: the payload is longer than OWN_CAP (R131, R133, R144). Safe: no outcome defined. -/
  | ownCapacity
  /-- raised by WR CMD: a command word outside 0x01 to 0x0B (R87). Safe: no outcome defined. -/
  | reservedCommand
  /-- raised by WR of STATUS, ET_CLASS, RES_LEN or OWN_LEN (R141). Safe: no outcome defined. -/
  | readOnlyWrite
  /-- raised by RD of CMD (R142). Safe: no outcome defined. -/
  | writeOnlyRead
  /-- raised by WR and RD of a register number above 0x0E (R141, R142). Safe: no outcome defined. -/
  | badRegister
  /-- raised by WR of a value that does not fit the register (R141). Safe: no outcome defined. -/
  | valueWidth
  /-- raised by OR at or beyond len(OWN) (R145). Safe: no outcome defined. -/
  | ownIndex
  deriving DecidableEq, Repr

/-- The launch state: the registers and OWN as reset leaves them (R41), over given parameters, a given content of M
("an input", R173) and the operations the host will issue. -/
def State.launch (p : Params) (m : Memory) (ops : List HostOp) : State :=
  { params := p, script := ops, reply := .none, status := 0#8, srcBase := 0, srcLen := 0, dstBase := 0, dstCap := 0,
    payBase := 0, payLen := 0, hDst := 0#48, hSrc := 0#48, hEt := 0#16, resLen := 0, hwire := 0#112, own := [], mem := m }

/-- The machine right after reset (R41), with nothing listed in M and no host operation waiting, over the parameters of
the spec's test vectors (log entries 1, 2 and 3). -/
def State.reset : State := State.launch Config.reference [] []

end Sys2Proof.Machine
end

