-- ==== Sys2Proof/Machine/Flags.lean ====
section
/-! DEFINITION. The three conditions and the one flag register of the machine, STATUS. -/

namespace Sys2Proof.Machine

/-- The conditions a command can raise: exactly three (R150). -/
inductive Condition where
  | tooShort
  | noBody
  | bufferTooShort
  deriving DecidableEq, Repr

/-- `code(OK)` (R151). -/
abbrev okCode : BitVec 8 := 0#8

/-- The value STATUS takes for a condition (R151); bits 7:2 are 0 (R35). -/
def Condition.code : Condition → BitVec 8
  | .tooShort => 1#8
  | .noBody => 2#8
  | .bufferTooShort => 3#8

/-- Field ERR of STATUS, bits 1:0 (R35). -/
def errField (status : BitVec 8) : BitVec 2 := status.extractLsb' 0 2

end Sys2Proof.Machine
end

