-- ==== Sys2Proof/Machine/Operands.lean ====
section
/-! DEFINITION. The EtherType value, the register file as the host names it (R21, R90), the views, and the header and
frame values the registers hold (10_state.md sections 2 to 4). -/

namespace Sys2Proof.Machine

/-- The source's EtherType: a known identifier or the raw 16 bits (R103). -/
inductive EtherType where
  | known (id : Nat)
  | unknown (raw : EtCode)
  deriving DecidableEq, Repr

/-- `et_decode` (R103). -/
def etDecode (p : Params) (c : EtCode) : EtherType :=
  match (p.knownEt.map KnownEt.code).findIdx? (fun k => k == c) with
  | some id => .known id
  | none => .unknown c

/-- `et_encode` (R105). An identifier index outside the table is no EtherType value, and has no code. -/
def etEncode (p : Params) : EtherType → Option EtCode
  | .known id => (p.knownEt.map KnownEt.code)[id]?
  | .unknown raw => some raw

/-- The name of an EtherType's identifier (R104); the fallback has none. -/
def etName (p : Params) : EtherType → Option ProtocolName
  | .known id => (p.knownEt.map KnownEt.name)[id]?
  | .unknown _ => none

/-- An EtherType packed as ET_CLASS: KNOWN is bit 16, ID is bits 15:0 (R28). -/
def etPack : EtherType → BitVec 17
  | .known id => 1#1 ++ BitVec.ofNat 16 id
  | .unknown raw => 0#1 ++ raw

/-- The view ET_CLASS (R28). -/
def State.etClass (s : State) : BitVec 17 := etPack (etDecode s.params s.hEt)

/-- The view OWN_LEN (R34). -/
def State.ownLen (s : State) : Nat := s.own.length

/-- The Header the engine holds (R31). -/
def State.header (s : State) : Header := ⟨s.hDst, s.hSrc, s.hEt⟩

/-- The registers of R21. -/
inductive Reg where
  | cmd | status | srcBase | srcLen | dstBase | dstCap | payBase | payLen
  | hDst | hSrc | hEt | etClass | resLen | ownLen | hwire
  deriving DecidableEq, Repr

/-- The register a number names (R90); 0x0F and above are unassigned (R21). -/
def regOfNumber : Nat → Option Reg
  | 0x00 => some .cmd
  | 0x01 => some .status
  | 0x02 => some .srcBase
  | 0x03 => some .srcLen
  | 0x04 => some .dstBase
  | 0x05 => some .dstCap
  | 0x06 => some .payBase
  | 0x07 => some .payLen
  | 0x08 => some .hDst
  | 0x09 => some .hSrc
  | 0x0A => some .hEt
  | 0x0B => some .etClass
  | 0x0C => some .resLen
  | 0x0D => some .ownLen
  | 0x0E => some .hwire
  | _ => none

/-- The number of a register (R90). -/
def Reg.number : Reg → Nat
  | .cmd => 0x00
  | .status => 0x01
  | .srcBase => 0x02
  | .srcLen => 0x03
  | .dstBase => 0x04
  | .dstCap => 0x05
  | .payBase => 0x06
  | .payLen => 0x07
  | .hDst => 0x08
  | .hSrc => 0x09
  | .hEt => 0x0A
  | .etClass => 0x0B
  | .resLen => 0x0C
  | .ownLen => 0x0D
  | .hwire => 0x0E

/-- What the host may do with a register (R21). -/
inductive Access where
  | readWrite
  | readOnly
  | writeOnly
  deriving DecidableEq, Repr

/-- The access column of R21. -/
def Reg.access : Reg → Access
  | .cmd => .writeOnly
  | .status => .readOnly
  | .etClass => .readOnly
  | .resLen => .readOnly
  | .ownLen => .readOnly
  | .srcBase => .readWrite
  | .srcLen => .readWrite
  | .dstBase => .readWrite
  | .dstCap => .readWrite
  | .payBase => .readWrite
  | .payLen => .readWrite
  | .hDst => .readWrite
  | .hSrc => .readWrite
  | .hEt => .readWrite
  | .hwire => .readWrite

/-- The width column of R21. -/
def Reg.width (p : Params) : Reg → Nat
  | .cmd => 8
  | .status => 8
  | .srcBase => p.aw
  | .srcLen => p.lw
  | .dstBase => p.aw
  | .dstCap => p.lw
  | .payBase => p.aw
  | .payLen => p.lw
  | .hDst => 48
  | .hSrc => 48
  | .hEt => 16
  | .etClass => 17
  | .resLen => p.lw + 1
  | .ownLen => p.lw
  | .hwire => 112

/-- `x[reg]` as the host reads it, the whole value at once (R13, R140, R142). CMD stores nothing and the host cannot
read it: there is no value (R37). -/
def State.readReg (s : State) : Reg → Option Nat
  | .cmd => none
  | .status => some s.status.toNat
  | .srcBase => some s.srcBase
  | .srcLen => some s.srcLen
  | .dstBase => some s.dstBase
  | .dstCap => some s.dstCap
  | .payBase => some s.payBase
  | .payLen => some s.payLen
  | .hDst => some s.hDst.toNat
  | .hSrc => some s.hSrc.toNat
  | .hEt => some s.hEt.toNat
  | .etClass => some s.etClass.toNat
  | .resLen => some s.resLen
  | .ownLen => some s.ownLen
  | .hwire => some s.hwire.toNat

end Sys2Proof.Machine
end

