-- ==== Sys2Proof/Machine/Ops.lean ====
section
/-! DEFINITION. The named operations over M, the registers and OWN; raising a condition and refusing (R13 to R16). -/

namespace Sys2Proof.Machine

/-- What a command or host operation answers. -/
abbrev Result := Host.Outcome State Fault Refusal

/-! ### M -/

/-- The byte listed for an address, none where nothing has listed one. -/
def Memory.lookup : Memory → Nat → Option Byte
  | [], _ => none
  | c :: m, a => if c.1 = a then some c.2 else Memory.lookup m a

/-- The byte of M at an address (R57): the listed one, else what the platform left there (R173). -/
def Memory.read (m : Memory) (a : Nat) : Byte := (m.lookup a).getD (Config.launchByte a)

/-- `MemRead(addr, n)` (R14). -/
def Memory.readN (m : Memory) (addr n : Nat) : List Byte :=
  (List.range n).map fun i => m.read (addr + i)

/-- `M[a] <- b`, keeping the addresses strictly rising. -/
def Memory.write : Memory → Nat → Byte → Memory
  | [], a, b => [(a, b)]
  | c :: m, a, b =>
    if a < c.1 then (a, b) :: c :: m
    else if a = c.1 then (a, b) :: m
    else c :: Memory.write m a b

/-- `MemWrite(addr, len(b), b)` (R14). -/
def Memory.writeN : Memory → Nat → List Byte → Memory
  | m, _, [] => m
  | m, addr, b :: bs => Memory.writeN (m.write addr b) (addr + 1) bs

/-- The canonical form: addresses strictly rising. No entry equals what an unlisted address reads as, since that is no
value but the free value (log entry 3). -/
abbrev Memory.wf (m : Memory) : Prop := m.Pairwise fun c d => c.1 < d.1

/-! ### Descriptors -/

/-- `a` is in `MEM` (R11). -/
def inMem (p : Params) (a : Nat) : Bool :=
  p.mem.any fun r => decide (r.base ≤ a) && decide (a < r.base + r.size)

/-- A well-formed descriptor (R60): of length 0, or within the address space (the sum exact) with every address in
`MEM`. -/
def wellFormedRange (p : Params) (base len : Nat) : Bool :=
  decide (len = 0) ||
    (decide (base + len ≤ 2 ^ p.aw) && (List.range len).all fun i => inMem p (base + i))

/-- The two ranges share at least one address (R63). -/
def rangesMeet (base₁ len₁ base₂ len₂ : Nat) : Bool :=
  decide (0 < len₁) && decide (0 < len₂) && decide (base₁ < base₂ + len₂) && decide (base₂ < base₁ + len₁)

/-- The source descriptor is well-formed (R22, R60). -/
def State.srcOk (s : State) : Bool := wellFormedRange s.params s.srcBase s.srcLen

/-- The destination descriptor is well-formed (R23, R60). -/
def State.dstOk (s : State) : Bool := wellFormedRange s.params s.dstBase s.dstCap

/-- The payload descriptor is well-formed (R24, R60). -/
def State.payOk (s : State) : Bool := wellFormedRange s.params s.payBase s.payLen

/-- FENC's overlap test: the payload range against the whole destination range (R63). -/
def State.payMeetsDst (s : State) : Bool := rangesMeet s.payBase s.payLen s.dstBase s.dstCap

/-! ### Register updates -/

def State.setScript (s : State) (ops : List HostOp) : State := { s with script := ops }
def State.setReply (s : State) (r : Reply) : State := { s with reply := r }
def State.setStatus (s : State) (v : BitVec 8) : State := { s with status := v }
def State.setSrcBase (s : State) (v : Nat) : State := { s with srcBase := v }
def State.setSrcLen (s : State) (v : Nat) : State := { s with srcLen := v }
def State.setDstBase (s : State) (v : Nat) : State := { s with dstBase := v }
def State.setDstCap (s : State) (v : Nat) : State := { s with dstCap := v }
def State.setPayBase (s : State) (v : Nat) : State := { s with payBase := v }
def State.setPayLen (s : State) (v : Nat) : State := { s with payLen := v }
def State.setHDst (s : State) (v : Mac) : State := { s with hDst := v }
def State.setHSrc (s : State) (v : Mac) : State := { s with hSrc := v }
def State.setHEt (s : State) (v : EtCode) : State := { s with hEt := v }
def State.setResLen (s : State) (v : Nat) : State := { s with resLen := v }
def State.setHwire (s : State) (v : Wire) : State := { s with hwire := v }

/-- `OWN <- b`: the whole content is replaced (R13, R33). -/
def State.setOwn (s : State) (b : List Byte) : State := { s with own := b }

def State.setMem (s : State) (m : Memory) : State := { s with mem := m }

/-- The three header registers written in the order dst, src, ether_type (R40). -/
def State.setHeader (s : State) (h : Header) : State :=
  ((s.setHDst h.dst).setHSrc h.src).setHEt h.et

/-- `x[reg] <- v` for a register the host may write (R141); `v` fits the width. The other registers hold nothing a host
write could change. -/
def State.writeReg (s : State) (r : Reg) (v : Nat) : State :=
  match r with
  | .srcBase => s.setSrcBase v
  | .srcLen => s.setSrcLen v
  | .dstBase => s.setDstBase v
  | .dstCap => s.setDstCap v
  | .payBase => s.setPayBase v
  | .payLen => s.setPayLen v
  | .hDst => s.setHDst (BitVec.ofNat 48 v)
  | .hSrc => s.setHSrc (BitVec.ofNat 48 v)
  | .hEt => s.setHEt (BitVec.ofNat 16 v)
  | .hwire => s.setHwire (BitVec.ofNat 112 v)
  | .cmd => s
  | .status => s
  | .etClass => s
  | .resLen => s
  | .ownLen => s

/-! ### How a command ends -/

/-- `raise <Condition>`: STATUS takes the code and nothing else changes (R15, R156). There is no return from it (R157). -/
def raise (c : Condition) (s : State) : Result := .next (s.setStatus c.code)

/-- `refuse(<reason>)`: the spec gives no outcome (R16). -/
def refuse (r : Refusal) : Result := .refused r

/-- The end of a command that succeeded and set RES_LEN (R35, R36). -/
def complete (n : Nat) (s : State) : Result := .next ((s.setResLen n).setStatus okCode)

/-! ### The work the commands share -/

/-- The 14 bytes at an address, as a Header (R110, R115). -/
def State.headerAt (s : State) (addr : Nat) : Header := hdrUnpack (s.mem.readN addr hdrLen)

/-- The borrowed payload's bytes, as M holds them now (R32, R64). -/
def State.payload (s : State) : List Byte := s.mem.readN s.payBase s.payLen

/-- `MemWrite` of the header image at DST_BASE, then of a payload at DST_BASE + 14 (R3, R122, R132). -/
def State.storeFrame (s : State) (payload : List Byte) : State :=
  s.setMem ((s.mem.writeN s.dstBase (hdrPack s.header)).writeN (s.dstBase + hdrLen) payload)

/-- The wire image of the borrowed frame (R120). -/
def State.borrowedImage (s : State) : List Byte := hdrPack s.header ++ s.payload

/-- The wire image of the owned frame (R130). -/
def State.ownedImage (s : State) : List Byte := hdrPack s.header ++ s.own

/-! ### The host's plain operations -/

/-- `MW addr, b` (R143). -/
def hostMw (addr : Nat) (b : List Byte) (s : State) : Result :=
  if wellFormedRange s.params addr b.length then .next (s.setMem (s.mem.writeN addr b))
  else refuse .badDescriptor

end Sys2Proof.Machine
end

