-- ==== Sys2Proof/Machine/BorrowedFrame.lean ====
section
/-! DEFINITION. The borrowed frame codec's commands: FDEC, FENC, FLEN (42_borrowed_frame_codec.md). -/

namespace Sys2Proof.Machine

/-- FDEC (R121): refused on an ill-formed source; NoBody at 14 bytes or fewer; else the header decoded and the payload
descriptor set to the rest of the source range, no payload byte read. -/
def execFdec (s : State) : Result :=
  if !s.srcOk then refuse .badDescriptor
  else if s.srcLen ≤ hdrLen then raise .noBody s
  else complete s.srcLen
    (((s.setHeader (s.headerAt s.srcBase)).setPayBase (s.srcBase + hdrLen)).setPayLen (s.srcLen - hdrLen))

/-- FENC (R122): refused on an ill-formed destination or payload, then on an overlap; BufferTooShort when the frame
does not fit; else the header and the payload bytes written. -/
def execFenc (s : State) : Result :=
  if !s.dstOk then refuse .badDescriptor
  else if !s.payOk then refuse .badDescriptor
  else if s.payMeetsDst then refuse .overlap
  else if s.dstCap < hdrLen + s.payLen then raise .bufferTooShort s
  else complete (hdrLen + s.payLen) (s.storeFrame s.payload)

/-- FLEN (R123): `14 + PAY_LEN`, no descriptor checked. -/
def execFlen (s : State) : Result := complete (hdrLen + s.payLen) s

end Sys2Proof.Machine
end

