-- ==== Sys2Proof/Machine/HeaderCodec.lean ====
section
/-! DEFINITION. The header codec's commands: HDEC14, HENC14, HDEC, HENC (41_header_codec.md). -/

namespace Sys2Proof.Machine

/-- HDEC14 (R113): the wire image in HWIRE, decoded into the header register. -/
def execHdec14 (s : State) : Result :=
  complete hdrLen (s.setHeader (hdrUnpack (wireBytes s.hwire)))

/-- HENC14 (R114): the header register, encoded into HWIRE. -/
def execHenc14 (s : State) : Result :=
  complete hdrLen (s.setHwire (wireImage (hdrPack s.header)))

/-- HDEC (R115): refused on an ill-formed source; TooShort below 14 bytes; else the first 14 bytes decoded. -/
def execHdec (s : State) : Result :=
  if !s.srcOk then refuse .badDescriptor
  else if s.srcLen < hdrLen then raise .tooShort s
  else complete hdrLen (s.setHeader (s.headerAt s.srcBase))

/-- HENC (R116): refused on an ill-formed destination; BufferTooShort below 14 bytes; else exactly 14 bytes written. -/
def execHenc (s : State) : Result :=
  if !s.dstOk then refuse .badDescriptor
  else if s.dstCap < hdrLen then raise .bufferTooShort s
  else complete hdrLen (s.setMem (s.mem.writeN s.dstBase (hdrPack s.header)))

end Sys2Proof.Machine
end

