-- ==== Sys2Proof/Machine/OwnedFrame.lean ====
section
/-! DEFINITION. The owned frame codec's commands: ODEC, OENC, TOOWN, OLEN (43_owned_frame_codec.md). -/

namespace Sys2Proof.Machine

/-- ODEC (R131): refused on an ill-formed source, then on a payload above OWN_CAP; NoBody at 14 bytes or fewer; else the
header decoded and OWN replaced by a copy of the payload. PAY_BASE and PAY_LEN stay. -/
def execOdec (s : State) : Result :=
  if !s.srcOk then refuse .badDescriptor
  else if hdrLen < s.srcLen ∧ s.params.ownCap < s.srcLen - hdrLen then refuse .ownCapacity
  else if s.srcLen ≤ hdrLen then raise .noBody s
  else complete s.srcLen
    ((s.setHeader (s.headerAt s.srcBase)).setOwn (s.mem.readN (s.srcBase + hdrLen) (s.srcLen - hdrLen)))

/-- OENC (R132): refused on an ill-formed destination; BufferTooShort when the frame does not fit; else the header and
OWN written. -/
def execOenc (s : State) : Result :=
  if !s.dstOk then refuse .badDescriptor
  else if s.dstCap < hdrLen + s.own.length then raise .bufferTooShort s
  else complete (hdrLen + s.own.length) (s.storeFrame s.own)

/-- TOOWN (R133): refused on an ill-formed payload, then above OWN_CAP; else OWN replaced by a copy of the payload.
RES_LEN stays. -/
def execToown (s : State) : Result :=
  if !s.payOk then refuse .badDescriptor
  else if s.params.ownCap < s.payLen then refuse .ownCapacity
  else .next ((s.setOwn s.payload).setStatus okCode)

/-- OLEN (R134): `14 + len(OWN)`. -/
def execOlen (s : State) : Result := complete (hdrLen + s.own.length) s

end Sys2Proof.Machine
end

