-- ==== Sys2Proof/Machine/WireFormat.lean ====
section
/-! DEFINITION. The four wire-format rows of the opcode table. They are no commands and no command word selects them;
each is a datum the host hands to the engine, and its meaning is the host operation that carries it (log entry 5). -/

namespace Sys2Proof.Machine

/-- ETH2.HEADER (R80): the 112-bit wire image written to HWIRE, `WR HWIRE, dst :: src :: et` (R30, R141). -/
def execEth2Header (dst src : Mac) (et : EtCode) (s : State) : Result :=
  .next (s.writeReg .hwire (natOfBytes (hdrPack ⟨dst, src, et⟩)))

/-- ETH2.FRAME (R81): the frame's bytes written to the source buffer, `MW SRC_BASE, header ++ payload` (R22, R143). -/
def execEth2Frame (dst src : Mac) (et : EtCode) (payload : List Byte) (s : State) : Result :=
  hostMw s.srcBase (hdrPack ⟨dst, src, et⟩ ++ payload) s

/-- ETYPE.IPV6 (R88): the code 0x86DD written to H_ET, `WR H_ET, 0x86DD` (R27, R141). -/
def execEtypeIpv6 (s : State) : Result := .next (s.writeReg .hEt 0x86DD)

/-- ETYPE.UNKNOWN (R88): a code outside the known set, its raw bits written to H_ET, `WR H_ET, raw` (R27, R141). -/
def execEtypeUnknown (raw : EtCode) (s : State) : Result := .next (s.writeReg .hEt raw.toNat)

end Sys2Proof.Machine
end

