-- ==== Sys2Proof/Machine/Dispatch.lean ====
section
/-! DEFINITION. One arm per constructor of Instr. -/

namespace Sys2Proof.Machine

def exec (i : Instr) (s : State) : Host.Outcome State Fault Refusal :=
  match i with
  -- header codec, R113 to R116
  | .hdec14 => Sys2Proof.Machine.execHdec14 s
  | .henc14 => Sys2Proof.Machine.execHenc14 s
  | .hdec => Sys2Proof.Machine.execHdec s
  | .henc => Sys2Proof.Machine.execHenc s
  -- borrowed frame codec, R121 to R123
  | .fdec => Sys2Proof.Machine.execFdec s
  | .fenc => Sys2Proof.Machine.execFenc s
  | .flen => Sys2Proof.Machine.execFlen s
  -- owned frame codec, R131 to R134
  | .odec => Sys2Proof.Machine.execOdec s
  | .oenc => Sys2Proof.Machine.execOenc s
  | .toown => Sys2Proof.Machine.execToown s
  | .olen => Sys2Proof.Machine.execOlen s
  -- wire-format rows, R80, R81, R88
  | .eth2Header dst src et => Sys2Proof.Machine.execEth2Header dst src et s
  | .eth2Frame dst src et payload => Sys2Proof.Machine.execEth2Frame dst src et payload s
  | .etypeIpv6 => Sys2Proof.Machine.execEtypeIpv6 s
  | .etypeUnknown raw => Sys2Proof.Machine.execEtypeUnknown raw s

end Sys2Proof.Machine
end

