-- ==== Sys2Proof/Machine/HostOps.lean ====
section
/-! DEFINITION. The host operations (44_host_interface.md), and the operation by which the host hands the machine a
word of the opcode table. -/

namespace Sys2Proof.Machine

/-- Command issue (R146): the command a command word selects runs on the state as it is now; a reserved word is refused
(R87). -/
def issueCommand (c : Byte) (s : State) : Result :=
  match decode .cmd8 [c] with
  | .ok i => exec i s
  | .error _ => refuse .reservedCommand

/-- `WR reg, v` (R141, R146). The checks stand in the order R141 names a register's access, its number, the value's
width; only the reason of a refusal could depend on it (log entry 7). -/
def hostWr (reg v : Nat) (s : State) : Result :=
  match regOfNumber reg with
  | none => refuse .badRegister
  | some r =>
    if r.access = .readOnly then refuse .readOnlyWrite
    else if 2 ^ r.width s.params ≤ v then refuse .valueWidth
    else if r = .cmd then issueCommand (BitVec.ofNat 8 v) s
    else .next (s.writeReg r v)

/-- `RD reg` (R142): the value goes to the host, the engine does not change. -/
def hostRd (reg : Nat) (s : State) : Result :=
  match regOfNumber reg with
  | none => refuse .badRegister
  | some r =>
    match s.readReg r with
    | none => refuse .writeOnlyRead
    | some v => .next (s.setReply (.value v))

/-- `MR addr, n` (R143). -/
def hostMr (addr n : Nat) (s : State) : Result :=
  if wellFormedRange s.params addr n then .next (s.setReply (.bytes (s.mem.readN addr n)))
  else refuse .badDescriptor

/-- `OLOAD b` (R144). -/
def hostOload (b : List Byte) (s : State) : Result :=
  if s.params.ownCap < b.length then refuse .ownCapacity else .next (s.setOwn b)

/-- `OR i` (R145). -/
def hostOwnRead (i : Nat) (s : State) : Result :=
  match s.own[i]? with
  | none => refuse .ownIndex
  | some b => .next (s.setReply (.byte b))

/-- The engine after reset: every stored register 0, OWN empty; M, the parameters and the host are not the engine's and
stay (R41, R147). -/
def State.resetEngine (s : State) : State :=
  (State.launch s.params s.mem s.script).setReply s.reply

/-- `RESET` (R147, R170). -/
def hostReset (s : State) : Result := .next s.resetEngine

/-- One host operation, atomic (R140). -/
def hostStep (op : HostOp) (s : State) : Result :=
  match op with
  | .wr reg v => hostWr reg v s
  | .rd reg => hostRd reg s
  | .mw addr b => hostMw addr b s
  | .mr addr n => hostMr addr n s
  | .oload b => hostOload b s
  | .ownRead i => hostOwnRead i s
  | .reset => hostReset s

/-- The next thing the machine does: the host's next operation, or, when the host has stopped issuing them, nothing:
the engine takes no step of its own and holds its registers (R9, R146, R148, R163). -/
def runNext (s : State) : Result :=
  match s.script with
  | [] => .next s
  | op :: rest => hostStep op (s.setScript rest)

/-- The host operation that carries a word of the opcode table to where its format belongs: a command word to CMD, an
EtherType code to H_ET, a header image to HWIRE, a frame to the source buffer (log entries 5 and 6). -/
def carryWord (s : State) (nbits w : Nat) : HostOp :=
  if nbits ≤ 8 then .wr Reg.cmd.number w
  else if nbits ≤ 16 then .wr Reg.hEt.number w
  else if nbits ≤ 112 then .wr Reg.hwire.number w
  else .mw s.srcBase (tableBytes nbits w)

end Sys2Proof.Machine
end

