-- ==== Sys2Proof/Machine/Step.lean ====
section
/-! DEFINITION. The step. -/

namespace Sys2Proof.Machine

/-- One step of the machine: the host's next operation. -/
def step (s : State) : Host.Outcome State Fault Refusal := runNext s

/-- `s` with a word of the opcode table as what the next step runs: the host's next operation is the one that carries
the word (log entry 6). -/
def State.withFetchWord (s : State) (nbits w : Nat) : State := s.setScript (carryWord s nbits w :: s.script)

end Sys2Proof.Machine
end

