-- ==== Sys2Proof/Machine/HostScript.lean ====
section
/-! DEFINITION. The pseudo-operations of the host script and their expansions (R92). -/

namespace Sys2Proof.Machine

/-- A register write by name, `WR <reg>, <value>` (R91). -/
def Script.wr (r : Reg) (v : Nat) : List HostOp := [.wr r.number v]

/-- A command mnemonic alone on a line: `WR CMD, <command word>` (R92). -/
def Script.command (i : Instr) : List HostOp := Script.wr .cmd (natOfBytes (encode i))

/-- `SRC <addr>, <len>` (R92). -/
def Script.src (addr len : Nat) : List HostOp := Script.wr .srcBase addr ++ Script.wr .srcLen len

/-- `DST <addr>, <cap>` (R92). -/
def Script.dst (addr cap : Nat) : List HostOp := Script.wr .dstBase addr ++ Script.wr .dstCap cap

/-- `PAY <addr>, <len>` (R92). -/
def Script.pay (addr len : Nat) : List HostOp := Script.wr .payBase addr ++ Script.wr .payLen len

/-- `HDR <dst>, <src>, <et>` (R92). -/
def Script.hdr (dst src et : Nat) : List HostOp :=
  Script.wr .hDst dst ++ Script.wr .hSrc src ++ Script.wr .hEt et

end Sys2Proof.Machine
end

