-- ==== Sys2Proof/Safety.lean ====
section
/-! DEFINITION. The terms statements use: the invariant of every run, frames, and the spec's tables of what each command
checks, raises and writes. -/

namespace Sys2Proof.Machine

/-- Every register whose width is a parameter holds a value that fits it (R21). -/
abbrev State.Fits (s : State) : Prop :=
  s.srcBase < 2 ^ s.params.aw ∧ s.srcLen < 2 ^ s.params.lw ∧ s.dstBase < 2 ^ s.params.aw ∧ s.dstCap < 2 ^ s.params.lw ∧
    s.payBase < 2 ^ s.params.aw ∧ s.payLen < 2 ^ s.params.lw ∧ s.resLen < 2 ^ (s.params.lw + 1)

/-- What holds of the machine in every run: admissible parameters (R11), every value within its register (R21), the
reserved bits of STATUS 0 (R35), OWN within its capacity (R33), M in canonical form and listing only addresses of `MEM`
(R50). -/
abbrev State.Inv (s : State) : Prop :=
  s.params.Valid ∧ s.Fits ∧ s.status.toNat < 4 ∧ s.own.length ≤ s.params.ownCap ∧ s.mem.wf ∧
    ∀ c ∈ s.mem, inMem s.params c.1 = true

/-- Every byte of M outside `[base, base + len)` reads as before. -/
def Memory.SameOutside (m m' : Memory) (base len : Nat) : Prop :=
  ∀ a, ¬(base ≤ a ∧ a < base + len) → m'.read a = m.read a

/-- An answer with its next state, if it has one, changed. -/
def mapNext (f : State → State) : Result → Result
  | .next s => .next (f s)
  | .fault r => .fault r
  | .refused r => .refused r

/-- The "descriptors checked" column of R61, each well-formed (R60). -/
def descriptorsOk : Instr → State → Bool
  | .hdec14, _ => true
  | .henc14, _ => true
  | .hdec, s => s.srcOk
  | .henc, s => s.dstOk
  | .fdec, s => s.srcOk
  | .fenc, s => s.dstOk && s.payOk
  | .flen, _ => true
  | .odec, s => s.srcOk
  | .oenc, s => s.dstOk
  | .toown, s => s.payOk
  | .olen, _ => true
  | .eth2Header _ _ _, _ => true
  | .eth2Frame _ _ _ payload, s => wellFormedRange s.params s.srcBase (14 + payload.length)
  | .etypeIpv6, _ => true
  | .etypeUnknown _, _ => true

/-- The table of R155 with the codes of R151: what STATUS is after a command that is not refused, 0 where the command
raises nothing. -/
def statusAfter : Instr → State → BitVec 8
  | .hdec, s => if s.srcLen < 14 then 1#8 else 0#8
  | .henc, s => if s.dstCap < 14 then 3#8 else 0#8
  | .fdec, s => if s.srcLen ≤ 14 then 2#8 else 0#8
  | .fenc, s => if s.dstCap < 14 + s.payLen then 3#8 else 0#8
  | .odec, s => if s.srcLen ≤ 14 then 2#8 else 0#8
  | .oenc, s => if s.dstCap < 14 + s.own.length then 3#8 else 0#8
  | .hdec14, _ => 0#8
  | .henc14, _ => 0#8
  | .flen, _ => 0#8
  | .toown, _ => 0#8
  | .olen, _ => 0#8
  | .eth2Header _ _ _, s => s.status
  | .eth2Frame _ _ _ _, s => s.status
  | .etypeIpv6, s => s.status
  | .etypeUnknown _, s => s.status

/-- The encoded length of R58: how many bytes of the destination range a successful encode writes; none for every other
command. -/
def encodedLength : Instr → State → Nat
  | .henc, _ => 14
  | .fenc, s => 14 + s.payLen
  | .oenc, s => 14 + s.own.length
  | .hdec14, _ => 0
  | .henc14, _ => 0
  | .hdec, _ => 0
  | .fdec, _ => 0
  | .flen, _ => 0
  | .odec, _ => 0
  | .toown, _ => 0
  | .olen, _ => 0
  | .eth2Header _ _ _, _ => 0
  | .eth2Frame _ _ _ _, _ => 0
  | .etypeIpv6, _ => 0
  | .etypeUnknown _, _ => 0

/-- The table of R158: which host operation may be refused for which reason, and when. -/
def refusalListed (s : State) (op : HostOp) : Refusal → Prop
  | .badDescriptor =>
    (∃ i ∈ [Instr.hdec, .henc, .fdec, .fenc, .odec, .oenc, .toown],
      op = .wr 0x00 (natOfBytes (encode i)) ∧ descriptorsOk i s = false) ∨
    (∃ a b, op = .mw a b ∧ wellFormedRange s.params a b.length = false) ∨
    ∃ a n, op = .mr a n ∧ wellFormedRange s.params a n = false
  | .overlap => op = .wr 0x00 0x06 ∧ ∃ a, (s.payBase ≤ a ∧ a < s.payBase + s.payLen) ∧ s.dstBase ≤ a ∧ a < s.dstBase + s.dstCap
  | .ownCapacity =>
    (op = .wr 0x00 0x08 ∧ s.params.ownCap < s.srcLen - 14) ∨ (op = .wr 0x00 0x0A ∧ s.params.ownCap < s.payLen) ∨
    ∃ b, op = .oload b ∧ s.params.ownCap < b.length
  | .reservedCommand => ∃ c, op = .wr 0x00 c ∧ ¬(0x01 ≤ c ∧ c ≤ 0x0B)
  | .readOnlyWrite => ∃ r ∈ [0x01, 0x0B, 0x0C, 0x0D], ∃ v, op = .wr r v
  | .writeOnlyRead => op = .rd 0x00
  | .badRegister => ∃ r, 0x0E < r ∧ (op = .rd r ∨ ∃ v, op = .wr r v)
  | .valueWidth => ∃ r v, op = .wr (Reg.number r) v ∧ 2 ^ r.width s.params ≤ v
  | .ownIndex => ∃ i, op = .ownRead i ∧ s.own.length ≤ i
  | _ => False

end Sys2Proof.Machine
end

