-- ==== Sys2Proof/Certificates/Slice0/Obligations.lean ====
section
/-! DEFINITION. The statements for the provers, from the spec's numbered rules. -/

open Sys2Proof Sys2Proof.Machine

/-! ### Encoding -/

/-- For every well-formed instruction the decoder of its format reads its bytes back as it (R80, R81, R85, R86, R88). -/
def Obligations.DecodeOfEncode : Prop :=
  ∀ i : Instr, i.wellFormed = true → decode i.format (encode i) = .ok i

/-- Each byte sequence of a format has one meaning: what decodes is well-formed, of that format, and encodes to the
same bytes. -/
def Obligations.EncodeOfDecode : Prop :=
  ∀ (f : Format) (b : List Byte) (i : Instr), decode f b = .ok i → i.wellFormed = true ∧ i.format = f ∧ encode i = b

/-- A few words written out from the tables of R80, R81, R86 and R88 decode to what they stand for. -/
def Obligations.WrittenOutWordsDecode : Prop :=
  decode .cmd8 [0x05#8] = .ok .fdec ∧
  decode .cmd8 [0x0A#8] = .ok .toown ∧
  decode .etype16 [0x86#8, 0xDD#8] = .ok .etypeIpv6 ∧
  decode .etype16 [0xDD#8, 0x86#8] = .ok (.etypeUnknown 0xDD86#16) ∧
  decode .wire112 [0x00#8, 0x80#8, 0x41#8, 0xff#8, 0xf0#8, 0x0d#8, 0x00#8, 0x80#8, 0x41#8, 0xba#8, 0xbe#8, 0xff#8, 0x86#8, 0xdd#8]
    = .ok (.eth2Header 0x008041FFF00D#48 0x008041BABEFF#48 0x86DD#16)

/-- R87: the write of a reserved word to CMD is refused with ReservedCommand. -/
def Obligations.ReservedCommandRefused : Prop :=
  ∀ (s : State) (rest : List HostOp) (c : Byte), s.script = .wr 0x00 c.toNat :: rest →
    ¬(0x01 ≤ c.toNat ∧ c.toNat ≤ 0x0B) → step s = .refused .reservedCommand

/-! ### The step -/

/-- The word of the opcode table that the host hands over next is the instruction the step runs, with nothing around it. -/
def Obligations.FetchedWordRuns : Prop :=
  ∀ (s : State) (nbits w : Nat) (i : Instr), decodeTableWord nbits w = some i →
    step (s.withFetchWord nbits w) = exec i s

/-- R146: WR CMD with a command word runs the command on the state as it is, entirely, in one step. -/
def Obligations.StepRunsCommand : Prop :=
  ∀ (s : State) (rest : List HostOp) (c : Byte) (i : Instr), s.script = .wr 0x00 c.toNat :: rest →
    decode .cmd8 [c] = .ok i → i.wellFormed = true ∧ step s = exec i { s with script := rest }

/-- R92: a command mnemonic on a line of the host script runs that command. -/
def Obligations.MnemonicRunsCommand : Prop :=
  ∀ (s : State) (rest : List HostOp) (i : Instr), i.format = .cmd8 → s.script = Script.command i ++ rest →
    step s = exec i { s with script := rest }

/-- R9, R163: with no host operation left the engine takes no step of its own and holds its registers. That the machine
then still has a step, one that answers the same state, is the model's choice (log entry 1): R148 says only that a run
ends there. -/
def Obligations.IdleEngineHoldsState : Prop :=
  ∀ s : State, s.script = [] → step s = .next s

/-! ### Field types and the header layout -/

/-- R101: mac_encode's bytes are the register's slices, and the two functions are mutually inverse. -/
def Obligations.MacCodecInverse : Prop :=
  (∀ (a : Mac) (k : Nat), k < 6 → (macEncode a)[k]? = some (a.extractLsb' (40 - 8 * k) 8)) ∧
  (∀ a : Mac, (macEncode a).length = 6 ∧ macDecode (macEncode a) = a) ∧
  ∀ m : List Byte, m.length = 6 → macEncode (macDecode m) = m

/-- R112: the header codec's round trips, and the image as one 112-bit number. -/
def Obligations.HeaderRoundTrip : Prop :=
  (∀ b : List Byte, b.length = 14 → hdrPack (hdrUnpack b) = b) ∧
  (∀ h : Header, hdrUnpack (hdrPack h) = h) ∧
  ∀ h : Header, wireImage (hdrPack h) = h.dst ++ h.src ++ h.et

/-- R80: the fields of the wire image, byte by byte and as bits of HWIRE. -/
def Obligations.HeaderLayout : Prop :=
  (∀ h : Header, (hdrPack h).length = 14 ∧
    (∀ k, k < 6 → (hdrPack h)[k]? = (macEncode h.dst)[k]?) ∧
    (∀ k, k < 6 → (hdrPack h)[6 + k]? = (macEncode h.src)[k]?) ∧
    (hdrPack h)[12]? = some (h.et.extractLsb' 8 8) ∧ (hdrPack h)[13]? = some (h.et.extractLsb' 0 8)) ∧
  ∀ w : Wire, hdrUnpack (wireBytes w) = ⟨w.extractLsb' 64 48, w.extractLsb' 16 48, w.extractLsb' 0 16⟩

/-- R106: every EtherType code survives decode then encode, whatever the known set is. -/
def Obligations.EtherTypeFidelity : Prop :=
  ∀ (p : Params) (c : EtCode), etEncode p (etDecode p c) = some c

/-- R107: the other direction, for the values the hardware can hold; a raw value that is a known code does not survive. -/
def Obligations.EtherTypeDecodeOfEncode : Prop :=
  ∀ p : Params, p.Valid →
    (∀ id, id < p.knownEt.length → ∃ c, etEncode p (.known id) = some c ∧ etDecode p c = .known id) ∧
    (∀ raw : EtCode, etEncode p (.unknown raw) = some raw) ∧
    (∀ raw : EtCode, raw ∉ p.knownEt.map KnownEt.code → etDecode p raw = .unknown raw) ∧
    ∀ raw : EtCode, raw ∈ p.knownEt.map KnownEt.code → ∃ id, etDecode p raw = .known id

/-- R104: code 0x86DD is known and its identifier is named IPv6. -/
def Obligations.Ipv6CodeIsKnown : Prop :=
  ∀ p : Params, p.Valid → ∃ id, etDecode p 0x86DD#16 = .known id ∧ etName p (.known id) = some .ipv6

/-- R28: ET_CLASS. -/
def Obligations.EtClassView : Prop :=
  ∀ s : State, s.params.Valid →
    (∀ i, (s.params.knownEt.map KnownEt.code)[i]? = some s.hEt →
      s.etClass.getLsbD 16 = true ∧ (s.etClass.extractLsb' 0 16).toNat = i) ∧
    (s.hEt ∉ s.params.knownEt.map KnownEt.code → s.etClass.getLsbD 16 = false ∧ s.etClass.extractLsb' 0 16 = s.hEt) ∧
    s.resetEngine.etClass = etPack (etDecode s.params 0x0000#16)

/-- R88: the known set changes what ET_CLASS reads and nothing else: no command's effect, condition or refusal. -/
def Obligations.KnownSetChangesNoCommand : Prop :=
  ∀ (i : Instr) (s : State) (table : List KnownEt), i.format = .cmd8 →
    exec i { s with params := { s.params with knownEt := table } } =
      mapNext (fun t => { t with params := { t.params with knownEt := table } }) (exec i s)

/-! ### Reset and invariants -/

/-- The invariant holds right after reset. That it does rests on the parameters the model chose for State.reset (log
entry 2). -/
def Obligations.ResetHasInvariant : Prop := State.reset.Inv

/-- Every step keeps the invariant: registers within their widths (so no sum wraps, R62, R124), reserved bits of STATUS 0
(R35), OWN within its capacity (R33), M canonical and inside MEM (R50). -/
def Obligations.StepKeepsInvariant : Prop :=
  ∀ s t : State, s.Inv → step s = .next t → t.Inv

/-- R41, R147: RESET. M, the parameters and the host's own record stay. -/
def Obligations.ResetOperation : Prop :=
  ∀ (s : State) (rest : List HostOp), s.script = .reset :: rest →
    ∃ t, step s = .next t ∧
      (∀ r : Reg, r ≠ .cmd → r ≠ .etClass → t.readReg r = some 0) ∧
      t.readReg .etClass = some (etPack (etDecode s.params 0x0000#16)).toNat ∧
      t.own = [] ∧ t.mem = s.mem ∧ t.params = s.params ∧ t.script = rest ∧ t.reply = s.reply

/-- R172: commands straight after reset, over any parameters, any content of M and any host script. -/
def Obligations.CommandsAfterReset : Prop :=
  ∀ (p : Params) (m : Memory) (ops : List HostOp),
    exec .fdec (State.launch p m ops) = .next { State.launch p m ops with status := 2#8 } ∧
    exec .henc (State.launch p m ops) = .next { State.launch p m ops with status := 3#8 } ∧
    exec .flen (State.launch p m ops) = .next { State.launch p m ops with resLen := 14 }

/-! ### Results, with frames: the header codec -/

/-- R113: HDEC14 always succeeds, and everything its rule does not list is unchanged. -/
def Obligations.Hdec14Result : Prop :=
  ∀ s : State, exec .hdec14 s = .next
    { s with hDst := s.hwire.extractLsb' 64 48, hSrc := s.hwire.extractLsb' 16 48, hEt := s.hwire.extractLsb' 0 16,
             resLen := 14, status := 0#8 }

/-- R114: HENC14 always succeeds; after HDEC14 it restores HWIRE, and HDEC14 after it restores the header register. -/
def Obligations.Henc14Result : Prop :=
  ∀ s : State,
    exec .henc14 s = .next { s with hwire := s.hDst ++ s.hSrc ++ s.hEt, resLen := 14, status := 0#8 } ∧
    (∃ t u, exec .hdec14 s = .next t ∧ exec .henc14 t = .next u ∧ u.hwire = s.hwire) ∧
    ∃ t u, exec .henc14 s = .next t ∧ exec .hdec14 t = .next u ∧ u.header = s.header

/-- R115: HDEC. -/
def Obligations.HdecResult : Prop :=
  ∀ s : State,
    (s.srcOk = false → exec .hdec s = .refused .badDescriptor) ∧
    (s.srcOk = true → s.srcLen < 14 → exec .hdec s = .next { s with status := 1#8 }) ∧
    (s.srcOk = true → 14 ≤ s.srcLen → ∃ t, exec .hdec s = .next t ∧
      hdrPack t.header = s.mem.readN s.srcBase 14 ∧
      t = { s with hDst := t.hDst, hSrc := t.hSrc, hEt := t.hEt, resLen := 14, status := 0#8 })

/-- R116: HENC. The bytes it stores are the 14 at DST_BASE. -/
def Obligations.HencResult : Prop :=
  ∀ s : State,
    (s.dstOk = false → exec .henc s = .refused .badDescriptor) ∧
    (s.dstOk = true → s.dstCap < 14 → exec .henc s = .next { s with status := 3#8 }) ∧
    (s.dstOk = true → 14 ≤ s.dstCap → ∃ t, exec .henc s = .next t ∧
      t.mem.readN s.dstBase 14 = hdrPack s.header ∧ s.mem.SameOutside t.mem s.dstBase 14 ∧
      t = { s with mem := t.mem, resLen := 14, status := 0#8 })

/-- R118: HDEC followed by HENC copies a header unchanged. Between the two the host may change anything but the header
register. -/
def Obligations.HdecHencCopiesHeader : Prop :=
  ∀ s t t' u : State, exec .hdec s = .next t → t.status = 0#8 → t'.header = t.header →
    exec .henc t' = .next u → u.status = 0#8 → u.mem.readN t'.dstBase 14 = s.mem.readN s.srcBase 14

/-- R59: HDEC and FDEC read no byte of M but the 14 at SRC_BASE, and none at all when they raise a condition. -/
def Obligations.HeaderDecodeReadsFourteenBytes : Prop :=
  ∀ (s : State) (m : Memory),
    ((14 ≤ s.srcLen → m.readN s.srcBase 14 = s.mem.readN s.srcBase 14) →
      exec .hdec { s with mem := m } = mapNext (fun t => { t with mem := m }) (exec .hdec s)) ∧
    ((14 < s.srcLen → m.readN s.srcBase 14 = s.mem.readN s.srcBase 14) →
      exec .fdec { s with mem := m } = mapNext (fun t => { t with mem := m }) (exec .fdec s))

/-! ### Results, with frames: the borrowed frame codec -/

/-- R121: FDEC. -/
def Obligations.FdecResult : Prop :=
  ∀ s : State,
    (s.srcOk = false → exec .fdec s = .refused .badDescriptor) ∧
    (s.srcOk = true → s.srcLen ≤ 14 → exec .fdec s = .next { s with status := 2#8 }) ∧
    (s.srcOk = true → 14 < s.srcLen → ∃ t, exec .fdec s = .next t ∧
      hdrPack t.header = s.mem.readN s.srcBase 14 ∧
      t = { s with hDst := t.hDst, hSrc := t.hSrc, hEt := t.hEt, payBase := s.srcBase + 14, payLen := s.srcLen - 14,
                   resLen := s.srcLen, status := 0#8 })

/-- R62: every range that a command which completes with STATUS 0 reads or writes, and every address it computes, lies in
the address space: the 14 bytes of HDEC and HENC; the payload base and range that FDEC leaves (the descriptor it leaves
is well-formed) and that ODEC copies; the encoded range, the base of a non-empty payload write and the payload range of
FENC; the encoded range and the base of a non-empty payload write of OENC; the payload range of TOOWN. -/
def Obligations.AddressesNeverWrap : Prop :=
  (∀ s t : State, exec .hdec s = .next t → t.status = 0#8 → s.srcBase + 14 ≤ 2 ^ s.params.aw) ∧
  (∀ s t : State, exec .henc s = .next t → t.status = 0#8 → s.dstBase + 14 ≤ 2 ^ s.params.aw) ∧
  (∀ s t : State, exec .fdec s = .next t → t.status = 0#8 →
    s.srcBase + 14 < 2 ^ s.params.aw ∧ s.srcBase + s.srcLen ≤ 2 ^ s.params.aw ∧
    t.payBase < 2 ^ s.params.aw ∧ t.payBase + t.payLen ≤ 2 ^ s.params.aw ∧ t.payOk = true) ∧
  (∀ s t : State, exec .odec s = .next t → t.status = 0#8 →
    s.srcBase + 14 < 2 ^ s.params.aw ∧ s.srcBase + s.srcLen ≤ 2 ^ s.params.aw) ∧
  (∀ s t : State, exec .fenc s = .next t → t.status = 0#8 →
    s.dstBase + (14 + s.payLen) ≤ 2 ^ s.params.aw ∧
    (0 < s.payLen → s.dstBase + 14 < 2 ^ s.params.aw ∧ s.payBase + s.payLen ≤ 2 ^ s.params.aw)) ∧
  (∀ s t : State, exec .oenc s = .next t → t.status = 0#8 →
    s.dstBase + (14 + s.own.length) ≤ 2 ^ s.params.aw ∧ (s.own ≠ [] → s.dstBase + 14 < 2 ^ s.params.aw)) ∧
  ∀ s t : State, exec .toown s = .next t → 0 < s.payLen → s.payBase + s.payLen ≤ 2 ^ s.params.aw

/-- R122: FENC. The bytes it stores are the 14 + PAY_LEN at DST_BASE; the payload is what M holds now. -/
def Obligations.FencResult : Prop :=
  ∀ s : State,
    (s.dstOk = false → exec .fenc s = .refused .badDescriptor) ∧
    (s.dstOk = true → s.payOk = false → exec .fenc s = .refused .badDescriptor) ∧
    (s.dstOk = true → s.payOk = true → s.payMeetsDst = true → exec .fenc s = .refused .overlap) ∧
    (s.dstOk = true → s.payOk = true → s.payMeetsDst = false → s.dstCap < 14 + s.payLen →
      exec .fenc s = .next { s with status := 3#8 }) ∧
    (s.dstOk = true → s.payOk = true → s.payMeetsDst = false → 14 + s.payLen ≤ s.dstCap →
      ∃ t, exec .fenc s = .next t ∧
        t.mem.readN s.dstBase (14 + s.payLen) = hdrPack s.header ++ s.mem.readN s.payBase s.payLen ∧
        s.mem.SameOutside t.mem s.dstBase (14 + s.payLen) ∧
        t = { s with mem := t.mem, resLen := 14 + s.payLen, status := 0#8 })

/-- R63: FENC is refused for an overlap exactly when the ranges share an address; HENC and OENC never are. -/
def Obligations.OverlapRefusedExactly : Prop :=
  ∀ s : State,
    (s.dstOk = true → s.payOk = true →
      (exec .fenc s = .refused .overlap ↔
        ∃ a, (s.payBase ≤ a ∧ a < s.payBase + s.payLen) ∧ s.dstBase ≤ a ∧ a < s.dstBase + s.dstCap)) ∧
    exec .henc s ≠ .refused .overlap ∧ exec .oenc s ≠ .refused .overlap

/-- R123: FLEN always succeeds. -/
def Obligations.FlenResult : Prop :=
  ∀ s : State, exec .flen s = .next { s with resLen := 14 + s.payLen, status := 0#8 }

/-- R125: the round trip of the borrowed frame. Between FDEC and FENC anything may change but the header register, the
payload descriptor and the payload bytes of M. -/
def Obligations.BorrowedFrameRoundTrip : Prop :=
  ∀ s t t' u : State, exec .fdec s = .next t → t.status = 0#8 →
    t'.header = t.header → t'.payBase = t.payBase → t'.payLen = t.payLen →
    t'.mem.readN t.payBase t.payLen = s.mem.readN t.payBase t.payLen →
    exec .fenc t' = .next u → u.status = 0#8 →
    u.mem.readN t'.dstBase s.srcLen = s.mem.readN s.srcBase s.srcLen ∧ u.resLen = s.srcLen

/-- R126: after a successful FDEC, FLEN gives SRC_LEN. -/
def Obligations.FlenAfterFdec : Prop :=
  ∀ s t : State, exec .fdec s = .next t → t.status = 0#8 → ∃ u, exec .flen t = .next u ∧ u.resLen = s.srcLen ∧ u = t

/-- R127: FENC, FLEN and TOOWN accept an empty payload; FENC then writes the 14 header bytes, and FDEC of what it wrote
raises NoBody. FDEC never produces an empty payload. -/
def Obligations.EmptyPayloadAsymmetry : Prop :=
  (∀ s t : State, exec .fdec s = .next t → t.status = 0#8 → 1 ≤ t.payLen) ∧
  ∀ s : State, s.payLen = 0 →
    (∃ t, exec .flen s = .next t ∧ t.resLen = 14) ∧
    (∃ t, exec .toown s = .next t ∧ t.own = []) ∧
    (s.dstOk = true → 14 ≤ s.dstCap →
      ∃ t, exec .fenc s = .next t ∧ t.resLen = 14 ∧ t.status = 0#8 ∧
        t.mem.readN s.dstBase 14 = hdrPack s.header ∧ s.mem.SameOutside t.mem s.dstBase 14 ∧
        exec .fdec { t with srcBase := s.dstBase, srcLen := 14 } =
          .next { t with srcBase := s.dstBase, srcLen := 14, status := 2#8 })

/-- R64, R65: the borrowed payload is a view and the header a copy: after a host write to M, FENC and TOOWN take the
payload bytes M then holds, and the header is the one decoded. -/
def Obligations.PayloadIsViewHeaderIsCopy : Prop :=
  ∀ (s t u : State) (addr : Nat) (b : List Byte), exec .fdec s = .next t → t.status = 0#8 →
    hostStep (.mw addr b) t = .next u →
    u.header = t.header ∧
    (∀ v, exec .fenc u = .next v → v.status = 0#8 →
      v.mem.readN u.dstBase (14 + u.payLen) =
        s.mem.readN s.srcBase 14 ++ u.mem.readN (s.srcBase + 14) (s.srcLen - 14)) ∧
    (∀ v, exec .toown u = .next v → v.own = u.mem.readN (s.srcBase + 14) (s.srcLen - 14)) ∧
    ∀ a, addr ≤ a → a < addr + b.length → some (u.mem.read a) = b[a - addr]?

/-! ### Results, with frames: the owned frame codec -/

/-- R131: ODEC. -/
def Obligations.OdecResult : Prop :=
  ∀ s : State,
    (s.srcOk = false → exec .odec s = .refused .badDescriptor) ∧
    (s.srcOk = true → 14 < s.srcLen → s.params.ownCap < s.srcLen - 14 → exec .odec s = .refused .ownCapacity) ∧
    (s.srcOk = true → s.srcLen ≤ 14 → exec .odec s = .next { s with status := 2#8 }) ∧
    (s.srcOk = true → 14 < s.srcLen → s.srcLen - 14 ≤ s.params.ownCap → ∃ t, exec .odec s = .next t ∧
      hdrPack t.header ++ t.own = s.mem.readN s.srcBase s.srcLen ∧
      t = { s with hDst := t.hDst, hSrc := t.hSrc, hEt := t.hEt, own := t.own, resLen := s.srcLen, status := 0#8 })

/-- R132: OENC. The bytes it stores are the 14 + len(OWN) at DST_BASE; no overlap is refused. -/
def Obligations.OencResult : Prop :=
  ∀ s : State,
    (s.dstOk = false → exec .oenc s = .refused .badDescriptor) ∧
    (s.dstOk = true → s.dstCap < 14 + s.own.length → exec .oenc s = .next { s with status := 3#8 }) ∧
    (s.dstOk = true → 14 + s.own.length ≤ s.dstCap → ∃ t, exec .oenc s = .next t ∧
      t.mem.readN s.dstBase (14 + s.own.length) = hdrPack s.header ++ s.own ∧
      s.mem.SameOutside t.mem s.dstBase (14 + s.own.length) ∧
      t = { s with mem := t.mem, resLen := 14 + s.own.length, status := 0#8 })

/-- R133: TOOWN. RES_LEN stays. -/
def Obligations.ToownResult : Prop :=
  ∀ s : State,
    (s.payOk = false → exec .toown s = .refused .badDescriptor) ∧
    (s.payOk = true → s.params.ownCap < s.payLen → exec .toown s = .refused .ownCapacity) ∧
    (s.payOk = true → s.payLen ≤ s.params.ownCap →
      exec .toown s = .next { s with own := s.mem.readN s.payBase s.payLen, status := 0#8 })

/-- R134: OLEN always succeeds. -/
def Obligations.OlenResult : Prop :=
  ∀ s : State, exec .olen s = .next { s with resLen := 14 + s.own.length, status := 0#8 }

/-- R135: ODEC and FDEC give the same frame, raise NoBody in the same states, and ODEC differs from FDEC, TOOWN in the
payload descriptor only. -/
def Obligations.OwnedBorrowedEquivalence : Prop :=
  ∀ s : State, s.srcOk = true →
    (14 < s.srcLen → s.srcLen - 14 ≤ s.params.ownCap →
      ∃ t u v, exec .fdec s = .next t ∧ exec .odec s = .next u ∧ exec .toown t = .next v ∧
        u.header = t.header ∧ u.resLen = t.resLen ∧ u.status = t.status ∧ u.own = t.mem.readN t.payBase t.payLen ∧
        u = { v with payBase := s.payBase, payLen := s.payLen }) ∧
    (s.srcLen ≤ 14 → exec .odec s = exec .fdec s ∧ ∃ t, exec .fdec s = .next t ∧ t.status = 2#8)

/-- R66, R136: after ODEC or TOOWN no host write to M changes OWN, and a later OENC writes the copied bytes. -/
def Obligations.OwnedFrameIndependence : Prop :=
  ∀ (i : Instr) (s t u : State) (addr : Nat) (b : List Byte), i = .odec ∨ i = .toown → exec i s = .next t →
    hostStep (.mw addr b) t = .next u →
    u.own = t.own ∧ ∀ v, exec .oenc u = .next v → v.status = 0#8 →
      v.mem.readN u.dstBase (14 + t.own.length) = hdrPack t.header ++ t.own

/-- R137: the round trip of the owned frame, into any destination, the source range included. Between ODEC and OENC
anything may change but the header register and OWN, all of M included. -/
def Obligations.OwnedFrameRoundTrip : Prop :=
  ∀ s t t' u : State, exec .odec s = .next t → t.status = 0#8 → t'.header = t.header → t'.own = t.own →
    exec .oenc t' = .next u → u.status = 0#8 →
    u.mem.readN t'.dstBase s.srcLen = s.mem.readN s.srcBase s.srcLen ∧ u.resLen = s.srcLen

/-! ### The wire-format rows -/

/-- The model's choice for the three register-borne rows (log entry 5): the datum goes to its register, whole, and
nothing else changes (R141). -/
def Obligations.WireDatumLoadsRegister : Prop :=
  (∀ (dst src : Mac) (et : EtCode) (s : State),
    exec (.eth2Header dst src et) s = .next { s with hwire := dst ++ src ++ et }) ∧
  (∀ s : State, exec .etypeIpv6 s = .next { s with hEt := 0x86DD#16 }) ∧
  ∀ (raw : EtCode) (s : State), exec (.etypeUnknown raw) s = .next { s with hEt := raw }

/-- The model's choice for the frame row (log entry 5): its bytes, and no others, are stored at SRC_BASE when that range
is well-formed, and the operation is refused otherwise (R143). -/
def Obligations.FrameDatumFillsSource : Prop :=
  ∀ (dst src : Mac) (et : EtCode) (payload : List Byte) (s : State),
    (wellFormedRange s.params s.srcBase (14 + payload.length) = false →
      exec (.eth2Frame dst src et payload) s = .refused .badDescriptor) ∧
    (wellFormedRange s.params s.srcBase (14 + payload.length) = true →
      ∃ t, exec (.eth2Frame dst src et payload) s = .next t ∧
        t.mem.readN s.srcBase (14 + payload.length) = hdrPack ⟨dst, src, et⟩ ++ payload ∧
        s.mem.SameOutside t.mem s.srcBase (14 + payload.length) ∧ t = { s with mem := t.mem })

/-- R88, R103: once an EtherType code is in H_ET, ET_CLASS reads IPv6's identifier for the known code, and the raw code
with KNOWN 0 for a code outside the known set. That a code's row loads H_ET is the model's choice (log entry 5). -/
def Obligations.EtherTypeRowsRead : Prop :=
  ∀ s : State, s.params.Valid →
    (∃ t id, exec .etypeIpv6 s = .next t ∧ etName s.params (.known id) = some .ipv6 ∧
      t.etClass = 1#1 ++ BitVec.ofNat 16 id) ∧
    ∀ raw : EtCode, raw ∉ s.params.knownEt.map KnownEt.code →
      ∃ t, exec (.etypeUnknown raw) s = .next t ∧ t.etClass = 0#1 ++ raw

/-! ### Conditions and refusals -/

/-- R152 to R155: which command raises what, exactly when, with the codes of R151. -/
def Obligations.ConditionTable : Prop :=
  ∀ (i : Instr) (s t : State), i.format = .cmd8 → exec i s = .next t → t.status = statusAfter i s

/-- R156: a command that raises a condition changes STATUS and nothing else. -/
def Obligations.ConditionChangesStatusOnly : Prop :=
  ∀ (i : Instr) (s t : State), i.format = .cmd8 → exec i s = .next t → t.status ≠ 0#8 →
    t = { s with status := statusAfter i s }

/-- R157: the same command in the same state raises the same condition again; and no command reads STATUS, so a code is
never sticky. -/
def Obligations.ConditionRepeatsAndNeverSticks : Prop :=
  (∀ (i : Instr) (s t : State), i.format = .cmd8 → exec i s = .next t → t.status ≠ 0#8 → exec i t = .next t) ∧
  ∀ (i : Instr) (s : State) (v : BitVec 8), i.format = .cmd8 → exec i { s with status := v } = exec i s

/-- R60, R159: an ill-formed descriptor is refused before everything else, whatever the lengths are. -/
def Obligations.IllFormedDescriptorRefused : Prop :=
  ∀ (i : Instr) (s : State), i.format = .cmd8 → descriptorsOk i s = false → exec i s = .refused .badDescriptor

/-- R60: what well-formed means. -/
def Obligations.WellFormedDescriptor : Prop :=
  ∀ (p : Params) (base len : Nat),
    wellFormedRange p base len = true ↔
      len = 0 ∨ (base + len ≤ 2 ^ p.aw ∧ ∀ a, base ≤ a → a < base + len → ∃ r ∈ p.mem, r.base ≤ a ∧ a < r.base + r.size)

/-- R158: the reasons are a closed list, each raised by the operations and for the cause the list names. -/
def Obligations.RefusalReasonsClosed : Prop :=
  ∀ (s : State) (op : HostOp) (rest : List HostOp) (r : Refusal), s.script = op :: rest → step s = .refused r →
    refusalListed s op r

/-- R160: no content of the header, of HWIRE, of M or of OWN decides whether a command is refused, raises a condition, or
what lengths it reports. -/
def Obligations.ContentIsNeverAnError : Prop :=
  ∀ (i : Instr) (s : State) (h : Header) (w : Wire) (m : Memory) (own : List Byte), i.format = .cmd8 →
    own.length = s.own.length →
    (∀ r, exec i s = .refused r →
      exec i { s with hDst := h.dst, hSrc := h.src, hEt := h.et, hwire := w, mem := m, own := own } = .refused r) ∧
    ∀ t, exec i s = .next t →
      ∃ u, exec i { s with hDst := h.dst, hSrc := h.src, hEt := h.et, hwire := w, mem := m, own := own } = .next u ∧
        u.status = t.status ∧ u.resLen = t.resLen ∧ u.payBase = t.payBase ∧ u.payLen = t.payLen ∧
        u.own.length = t.own.length

/-! ### Whole-machine frames -/

/-- The "written by" column of R21, with R22, R23 and R33: what each command may change. -/
def Obligations.WrittenByColumn : Prop :=
  ∀ (i : Instr) (s t : State), i.format = .cmd8 → exec i s = .next t →
    t.params = s.params ∧ t.script = s.script ∧ t.reply = s.reply ∧
    t.srcBase = s.srcBase ∧ t.srcLen = s.srcLen ∧ t.dstBase = s.dstBase ∧ t.dstCap = s.dstCap ∧
    (i ≠ .fdec → t.payBase = s.payBase ∧ t.payLen = s.payLen) ∧
    (i ∉ [Instr.hdec14, .hdec, .fdec, .odec] → t.header = s.header) ∧
    (i = .toown → t.resLen = s.resLen) ∧
    (i ≠ .henc14 → t.hwire = s.hwire) ∧
    (i ≠ .odec → i ≠ .toown → t.own = s.own) ∧
    (i ∉ [Instr.henc, .fenc, .oenc] → t.mem = s.mem)

/-- R58: a byte of M that a command changes lies among the first n of the destination range, n the encoded length. -/
def Obligations.WritesOnlyInsideDestination : Prop :=
  ∀ (i : Instr) (s t : State) (a : Nat), i.format = .cmd8 → exec i s = .next t → t.mem.read a ≠ s.mem.read a →
    s.dstBase ≤ a ∧ a < s.dstBase + encodedLength i s ∧ encodedLength i s ≤ s.dstCap

/-! ### The host interface -/

/-- R141: WR. A write of H_ET is seen through ET_CLASS too (R28); nothing else changes. A value too wide for a read-only
register breaks two of R141's rules, which has no order between them: the write is refused, for one of the two. -/
def Obligations.RegisterWrite : Prop :=
  ∀ (s : State) (rest : List HostOp) (n v : Nat), s.script = .wr n v :: rest →
    (0x0E < n → step s = .refused .badRegister) ∧
    ∀ r : Reg, n = r.number →
      (r.access = .readOnly → v < 2 ^ r.width s.params → step s = .refused .readOnlyWrite) ∧
      (r.access = .readOnly → 2 ^ r.width s.params ≤ v →
        step s = .refused .readOnlyWrite ∨ step s = .refused .valueWidth) ∧
      (r.access ≠ .readOnly → 2 ^ r.width s.params ≤ v → step s = .refused .valueWidth) ∧
      (r.access = .readWrite → v < 2 ^ r.width s.params →
        ∃ t, step s = .next t ∧ t.readReg r = some v ∧
          (∀ q : Reg, q ≠ r → ¬(q = .etClass ∧ r = .hEt) → t.readReg q = s.readReg q) ∧
          t.own = s.own ∧ t.mem = s.mem ∧ t.params = s.params ∧ t.script = rest ∧ t.reply = s.reply)

/-- R142: RD. The value goes to the host and the engine does not change; the views are computed at the read. -/
def Obligations.RegisterRead : Prop :=
  ∀ (s : State) (rest : List HostOp) (n : Nat), s.script = .rd n :: rest →
    (n = 0x00 → step s = .refused .writeOnlyRead) ∧
    (0x0E < n → step s = .refused .badRegister) ∧
    (n = 0x0B → step s = .next { s with script := rest, reply := .value (etPack (etDecode s.params s.hEt)).toNat }) ∧
    (n = 0x0D → step s = .next { s with script := rest, reply := .value s.own.length }) ∧
    ∀ r : Reg, n = r.number → r ≠ .cmd →
      ∃ v, s.readReg r = some v ∧ step s = .next { s with script := rest, reply := .value v }

/-- R143: MW and MR. -/
def Obligations.MemoryWriteAndRead : Prop :=
  (∀ (s : State) (rest : List HostOp) (addr : Nat) (b : List Byte), s.script = .mw addr b :: rest →
    (wellFormedRange s.params addr b.length = false → step s = .refused .badDescriptor) ∧
    (wellFormedRange s.params addr b.length = true → ∃ t, step s = .next t ∧
      t.mem.readN addr b.length = b ∧ s.mem.SameOutside t.mem addr b.length ∧
      t = { s with script := rest, mem := t.mem })) ∧
  ∀ (s : State) (rest : List HostOp) (addr n : Nat), s.script = .mr addr n :: rest →
    (wellFormedRange s.params addr n = false → step s = .refused .badDescriptor) ∧
    (wellFormedRange s.params addr n = true →
      step s = .next { s with script := rest, reply := .bytes (s.mem.readN addr n) })

/-- R144, R145: OLOAD and OR. -/
def Obligations.OwnedStoreAccess : Prop :=
  (∀ (s : State) (rest : List HostOp) (b : List Byte), s.script = .oload b :: rest →
    (s.params.ownCap < b.length → step s = .refused .ownCapacity) ∧
    (b.length ≤ s.params.ownCap → step s = .next { s with script := rest, own := b })) ∧
  ∀ (s : State) (rest : List HostOp) (i : Nat), s.script = .ownRead i :: rest →
    (s.own.length ≤ i → step s = .refused .ownIndex) ∧
    ∀ b, s.own[i]? = some b → step s = .next { s with script := rest, reply := .byte b }

/-- The model's choice where a write of a read-only register also gives a value too wide for it (log entry 7): the reason
named is ReadOnlyWrite, as for a value that fits. R141 gives both reasons and no order. -/
def Obligations.ReadOnlyReasonBeforeWidth : Prop :=
  ∀ (s : State) (rest : List HostOp) (r : Reg) (v : Nat), s.script = .wr r.number v :: rest → r.access = .readOnly →
    2 ^ r.width s.params ≤ v → step s = .refused .readOnlyWrite
end

