-- ==== Sys2Proof/Laws/Codec.lean ====
section
/-! SUPPORT. The lengths of the codec's byte sequences, and the two bytes of an EtherType code. -/

namespace Sys2Proof

@[simp] theorem macEncode_length (a : Mac) : (macEncode a).length = 6 := by simp [macEncode]

@[simp] theorem hdrPack_length (h : Header) : (hdrPack h).length = 14 := by simp [hdrPack]

@[simp] theorem wireBytes_length (w : Wire) : (wireBytes w).length = 14 := by simp [wireBytes]

@[simp] theorem bytesOfNat_length (n v : Nat) : (bytesOfNat n v).length = n := by simp [bytesOfNat]

/-- `be16(hi8(v), lo8(v)) = v` (R12). -/
@[simp] theorem be16_hi8_lo8 (v : EtCode) : be16 (hi8 v) (lo8 v) = v := by
  apply BitVec.eq_of_getLsbD_eq
  intro i hi
  simp only [be16, hi8, lo8, BitVec.getLsbD_append, BitVec.getLsbD_extractLsb']
  split
  · simp_all
  · simp_all; omega

@[simp] theorem hi8_be16 (h l : Byte) : hi8 (be16 h l) = h := by
  apply BitVec.eq_of_getLsbD_eq
  intro i hi
  simp only [be16, hi8, BitVec.getLsbD_append, BitVec.getLsbD_extractLsb']
  simp [hi]

@[simp] theorem lo8_be16 (h l : Byte) : lo8 (be16 h l) = l := by
  apply BitVec.eq_of_getLsbD_eq
  intro i hi
  simp only [be16, lo8, BitVec.getLsbD_append, BitVec.getLsbD_extractLsb']
  simp [hi]

/-! ### Numbers as byte sequences -/

@[simp] theorem natOfBytes_nil : natOfBytes [] = 0 := rfl

theorem natOfBytes_snoc (b : List Byte) (x : Byte) : natOfBytes (b ++ [x]) = natOfBytes b * 256 + x.toNat := by
  simp [natOfBytes]

theorem bytesOfNat_zero (v : Nat) : bytesOfNat 0 v = [] := rfl

theorem bytesOfNat_succ (n v : Nat) : bytesOfNat (n + 1) v = bytesOfNat n (v / 256) ++ [BitVec.ofNat 8 v] := by
  simp only [bytesOfNat, List.range_succ, List.map_append, List.map_cons, List.map_nil]
  congr 1
  · apply List.map_congr_left
    intro k hk
    have hk := List.mem_range.1 hk
    rw [Nat.div_div_eq_div_mul, ← Nat.pow_succ', show n + 1 - 1 - k = n - 1 - k + 1 by omega]
  · simp

/-- A byte sequence spells a number below 256 to the power of its length. -/
theorem natOfBytes_lt (b : List Byte) : natOfBytes b < 256 ^ b.length := by
  induction b using List.reverseRecOn with
  | nil => simp
  | append_singleton b x ih =>
    rw [natOfBytes_snoc, List.length_append, List.length_singleton, Nat.pow_succ]
    have := x.isLt
    omega

/-- A number's low bytes spell the number back, less what they cannot hold. -/
theorem natOfBytes_bytesOfNat (n v : Nat) : natOfBytes (bytesOfNat n v) = v % 256 ^ n := by
  induction n generalizing v with
  | zero => simp [bytesOfNat_zero, Nat.mod_one]
  | succ n ih =>
    have h : v % (256 * 256 ^ n) = v % 256 + 256 * (v / 256 % 256 ^ n) := Nat.mod_mul
    rw [← Nat.pow_succ'] at h
    rw [bytesOfNat_succ, natOfBytes_snoc, ih, BitVec.toNat_ofNat, h]
    omega

/-- A byte sequence is the bytes of the number it spells. -/
theorem bytesOfNat_natOfBytes (b : List Byte) : bytesOfNat b.length (natOfBytes b) = b := by
  induction b using List.reverseRecOn with
  | nil => rfl
  | append_singleton b x ih =>
    have hx := x.isLt
    rw [List.length_append, List.length_singleton, bytesOfNat_succ, natOfBytes_snoc,
      show (natOfBytes b * 256 + x.toNat) / 256 = natOfBytes b by omega, ih]
    congr 2
    apply BitVec.eq_of_toNat_eq
    rw [BitVec.toNat_ofNat]
    omega

/-- The 14 bytes of a wire image are the bytes of its number. -/
theorem wireBytes_eq (w : Wire) : wireBytes w = bytesOfNat 14 w.toNat := by
  simp only [wireBytes, bytesOfNat, hdrLen]
  apply List.map_congr_left
  intro k hk
  have hk := List.mem_range.1 hk
  apply BitVec.eq_of_toNat_eq
  rw [BitVec.extractLsb'_toNat, BitVec.toNat_ofNat, Nat.shiftRight_eq_div_pow, show (256 : Nat) = 2 ^ 8 from rfl,
    ← Nat.pow_mul]
  congr 3
  omega

@[simp] theorem wireImage_toNat (b : List Byte) (h : b.length = 14) : (wireImage b).toNat = natOfBytes b := by
  have hlt := natOfBytes_lt b
  rw [h] at hlt
  rw [wireImage, BitVec.toNat_ofNat]
  exact Nat.mod_eq_of_lt (by omega)

/-- HWIRE's two readings, one number and 14 bytes, are inverse (R30, R113, R114). -/
theorem wireBytes_wireImage (b : List Byte) (h : b.length = 14) : wireBytes (wireImage b) = b := by
  rw [wireBytes_eq, wireImage_toNat b h, ← h, bytesOfNat_natOfBytes]

theorem wireImage_wireBytes (w : Wire) : wireImage (wireBytes w) = w := by
  have hlt := w.isLt
  apply BitVec.eq_of_toNat_eq
  rw [wireImage_toNat _ (wireBytes_length w), wireBytes_eq, natOfBytes_bytesOfNat]
  exact Nat.mod_eq_of_lt (by omega)

/-! ### Decoding -/

/-- Where an encoder's bytes are as long as the format says (R80, R81, R85): one, two, 14, or 14 and the payload. -/
theorem decode_length {f : Format} {b : List Byte} {i : Instr} (h : decode f b = .ok i) :
    match f with
    | .cmd8 => b.length = 1
    | .etype16 => b.length = 2
    | .wire112 => b.length = 14
    | .wireFrame => 14 < b.length := by
  cases f <;> simp only [decode] at h <;> split at h <;> simp_all

end Sys2Proof
end

