-- ==== Sys2Proof/Laws/Memory.lean ====
section
/-! SUPPORT. What the memory operations do: a read after a write, the canonical form, and which addresses a write lists. -/

namespace Sys2Proof.Machine

/-- A listed address after a write: the byte written there, every other listing as before. It needs no canonical form. -/
theorem Memory.lookup_write (m : Memory) (a : Nat) (b : Byte) (x : Nat) :
    Memory.lookup (Memory.write m a b) x = if x = a then some b else Memory.lookup m x := by
  induction m with
  | nil => simp [Memory.write, Memory.lookup, eq_comm]
  | cons c m ih =>
    simp only [Memory.write]
    split
    · simp only [Memory.lookup, eq_comm]
    · split
      · rename_i h
        simp only [Memory.lookup, h]
        by_cases hx : x = c.1
        · simp [hx]
        · simp [hx, Ne.symm hx]
      · rename_i h
        simp only [Memory.lookup, ih]
        by_cases hx : c.1 = x
        · subst hx; simp [Ne.symm h]
        · simp [hx]

/-- A read after a write: the byte written there, every other byte as before. -/
theorem Memory.read_write (m : Memory) (a : Nat) (b : Byte) (x : Nat) :
    Memory.read (Memory.write m a b) x = if x = a then b else Memory.read m x := by
  simp only [Memory.read, Memory.lookup_write]; split <;> rfl

/-- A read after a wide write (R14, R57): inside the range the byte written there, outside it the byte as before. -/
theorem Memory.read_writeN (m : Memory) (addr : Nat) (bs : List Byte) (x : Nat) :
    Memory.read (Memory.writeN m addr bs) x =
      if addr ≤ x then (bs[x - addr]?).getD (Memory.read m x) else Memory.read m x := by
  induction bs generalizing m addr with
  | nil => simp [Memory.writeN]
  | cons b bs ih =>
    rw [Memory.writeN, ih, Memory.read_write]
    by_cases hx : x = addr
    · subst hx
      rw [if_neg (by omega)]; simp
    · by_cases h : addr ≤ x
      · obtain ⟨k, rfl⟩ : ∃ k, x = addr + 1 + k := ⟨x - (addr + 1), by omega⟩
        rw [if_pos (by omega), if_pos h, if_neg hx, show addr + 1 + k - addr = k + 1 by omega]
        simp
      · rw [if_neg (by omega), if_neg h, if_neg hx]

/-- Outside the written range every byte reads as before. -/
theorem Memory.read_writeN_outside (m : Memory) (addr : Nat) (bs : List Byte) (x : Nat)
    (h : ¬(addr ≤ x ∧ x < addr + bs.length)) : Memory.read (Memory.writeN m addr bs) x = Memory.read m x := by
  rw [Memory.read_writeN]
  split
  · rw [List.getElem?_eq_none (by omega)]; rfl
  · rfl

/-- Inside the written range each byte is the one written. -/
theorem Memory.read_writeN_inside (m : Memory) (addr : Nat) (bs : List Byte) (k : Nat) (h : k < bs.length) :
    Memory.read (Memory.writeN m addr bs) (addr + k) = bs[k] := by
  rw [Memory.read_writeN, if_pos (by omega), Nat.add_sub_cancel_left, List.getElem?_eq_getElem h]; rfl

@[simp] theorem Memory.readN_length (m : Memory) (addr n : Nat) : (Memory.readN m addr n).length = n := by
  simp [Memory.readN]

theorem Memory.readN_getElem (m : Memory) (addr n k : Nat) (h : k < (Memory.readN m addr n).length) :
    (Memory.readN m addr n)[k] = Memory.read m (addr + k) := by
  simp [Memory.readN]

/-- A wide read is fixed by the bytes it reads. -/
theorem Memory.readN_congr {m m' : Memory} {addr addr' n : Nat}
    (h : ∀ k, k < n → Memory.read m (addr + k) = Memory.read m' (addr' + k)) :
    Memory.readN m addr n = Memory.readN m' addr' n := by
  simp only [Memory.readN]
  exact List.map_congr_left fun k hk => h k (List.mem_range.1 hk)

/-- A wide read taken apart at any length. -/
theorem Memory.readN_add (m : Memory) (addr n k : Nat) :
    Memory.readN m addr (n + k) = Memory.readN m addr n ++ Memory.readN m (addr + n) k := by
  simp only [Memory.readN, List.range_add, List.map_append, List.map_map, Function.comp_def, Nat.add_assoc]

/-- A wide read of what a wide write to the same place stored. -/
theorem Memory.readN_writeN (m : Memory) (addr : Nat) (bs : List Byte) :
    Memory.readN (Memory.writeN m addr bs) addr bs.length = bs := by
  apply List.ext_getElem (by simp)
  intro k _ h
  rw [Memory.readN_getElem, Memory.read_writeN_inside m addr bs k h]

/-- Two wide writes end to end are one. -/
theorem Memory.writeN_append (m : Memory) (addr : Nat) (bs cs : List Byte) :
    Memory.writeN m addr (bs ++ cs) = Memory.writeN (Memory.writeN m addr bs) (addr + bs.length) cs := by
  induction bs generalizing m addr with
  | nil => rfl
  | cons b bs ih =>
    simp only [List.cons_append, Memory.writeN, ih, List.length_cons]
    congr 1; omega

/-- The address of a cell a write lists: the one written or one that was listed. -/
theorem Memory.mem_write {m : Memory} {a : Nat} {b : Byte} {c : Host.Cell} (h : c ∈ Memory.write m a b) :
    c.1 = a ∨ c ∈ m := by
  induction m with
  | nil => simp_all [Memory.write]
  | cons d m ih =>
    simp only [Memory.write] at h
    split at h
    · rcases List.mem_cons.1 h with rfl | h
      · exact .inl rfl
      · exact .inr h
    · split at h
      · rcases List.mem_cons.1 h with rfl | h
        · exact .inl rfl
        · exact .inr (List.mem_cons_of_mem _ h)
      · rcases List.mem_cons.1 h with rfl | h
        · exact .inr List.mem_cons_self
        · exact (ih h).imp_right (List.mem_cons_of_mem _)

/-- A write keeps the canonical form. -/
theorem Memory.wf_write (m : Memory) (a : Nat) (b : Byte) (hm : Memory.wf m) : Memory.wf (Memory.write m a b) := by
  induction m with
  | nil => simp [Memory.write, Memory.wf]
  | cons c m ih =>
    obtain ⟨hc, hm'⟩ := List.pairwise_cons.1 hm
    simp only [Memory.write]
    split
    · rename_i h
      refine List.pairwise_cons.2 ⟨fun d hd => ?_, hm⟩
      rcases List.mem_cons.1 hd with rfl | hd
      · exact h
      · exact Nat.lt_trans h (hc d hd)
    · split
      · rename_i h; subst h; exact List.pairwise_cons.2 ⟨hc, hm'⟩
      · refine List.pairwise_cons.2 ⟨fun d hd => ?_, ih hm'⟩
        rcases Memory.mem_write hd with h | h
        · omega
        · exact hc d h

/-- A wide write keeps the canonical form. -/
theorem Memory.wf_writeN (m : Memory) (addr : Nat) (bs : List Byte) (hm : Memory.wf m) :
    Memory.wf (Memory.writeN m addr bs) := by
  induction bs generalizing m addr with
  | nil => exact hm
  | cons b bs ih => exact ih _ _ (Memory.wf_write m addr b hm)

/-- The address of a cell a wide write lists: in the written range or listed before. -/
theorem Memory.mem_writeN {m : Memory} {addr : Nat} {bs : List Byte} {c : Host.Cell}
    (h : c ∈ Memory.writeN m addr bs) : (addr ≤ c.1 ∧ c.1 < addr + bs.length) ∨ c ∈ m := by
  induction bs generalizing m addr with
  | nil => exact .inr h
  | cons b bs ih =>
    rcases ih h with h | h
    · exact .inl (by simp only [List.length_cons]; omega)
    · rcases Memory.mem_write h with h | h
      · exact .inl (by simp only [List.length_cons]; omega)
      · exact .inr h

end Sys2Proof.Machine
end

