-- ==== Sys2Proof/Laws/State.lean ====
section
/-! SUPPORT. One lemma per field per named update of State. -/

namespace Sys2Proof.Machine

section setScript
variable (s : State) (ops : List HostOp)
@[simp] theorem State.setScript_params : (s.setScript ops).params = s.params := rfl
@[simp] theorem State.setScript_script : (s.setScript ops).script = ops := rfl
@[simp] theorem State.setScript_reply : (s.setScript ops).reply = s.reply := rfl
@[simp] theorem State.setScript_status : (s.setScript ops).status = s.status := rfl
@[simp] theorem State.setScript_srcBase : (s.setScript ops).srcBase = s.srcBase := rfl
@[simp] theorem State.setScript_srcLen : (s.setScript ops).srcLen = s.srcLen := rfl
@[simp] theorem State.setScript_dstBase : (s.setScript ops).dstBase = s.dstBase := rfl
@[simp] theorem State.setScript_dstCap : (s.setScript ops).dstCap = s.dstCap := rfl
@[simp] theorem State.setScript_payBase : (s.setScript ops).payBase = s.payBase := rfl
@[simp] theorem State.setScript_payLen : (s.setScript ops).payLen = s.payLen := rfl
@[simp] theorem State.setScript_hDst : (s.setScript ops).hDst = s.hDst := rfl
@[simp] theorem State.setScript_hSrc : (s.setScript ops).hSrc = s.hSrc := rfl
@[simp] theorem State.setScript_hEt : (s.setScript ops).hEt = s.hEt := rfl
@[simp] theorem State.setScript_resLen : (s.setScript ops).resLen = s.resLen := rfl
@[simp] theorem State.setScript_hwire : (s.setScript ops).hwire = s.hwire := rfl
@[simp] theorem State.setScript_own : (s.setScript ops).own = s.own := rfl
@[simp] theorem State.setScript_mem : (s.setScript ops).mem = s.mem := rfl
@[simp] theorem State.setScript_header : (s.setScript ops).header = s.header := rfl
end setScript

section setReply
variable (s : State) (r : Reply)
@[simp] theorem State.setReply_params : (s.setReply r).params = s.params := rfl
@[simp] theorem State.setReply_script : (s.setReply r).script = s.script := rfl
@[simp] theorem State.setReply_reply : (s.setReply r).reply = r := rfl
@[simp] theorem State.setReply_status : (s.setReply r).status = s.status := rfl
@[simp] theorem State.setReply_srcBase : (s.setReply r).srcBase = s.srcBase := rfl
@[simp] theorem State.setReply_srcLen : (s.setReply r).srcLen = s.srcLen := rfl
@[simp] theorem State.setReply_dstBase : (s.setReply r).dstBase = s.dstBase := rfl
@[simp] theorem State.setReply_dstCap : (s.setReply r).dstCap = s.dstCap := rfl
@[simp] theorem State.setReply_payBase : (s.setReply r).payBase = s.payBase := rfl
@[simp] theorem State.setReply_payLen : (s.setReply r).payLen = s.payLen := rfl
@[simp] theorem State.setReply_hDst : (s.setReply r).hDst = s.hDst := rfl
@[simp] theorem State.setReply_hSrc : (s.setReply r).hSrc = s.hSrc := rfl
@[simp] theorem State.setReply_hEt : (s.setReply r).hEt = s.hEt := rfl
@[simp] theorem State.setReply_resLen : (s.setReply r).resLen = s.resLen := rfl
@[simp] theorem State.setReply_hwire : (s.setReply r).hwire = s.hwire := rfl
@[simp] theorem State.setReply_own : (s.setReply r).own = s.own := rfl
@[simp] theorem State.setReply_mem : (s.setReply r).mem = s.mem := rfl
@[simp] theorem State.setReply_header : (s.setReply r).header = s.header := rfl
end setReply

section setStatus
variable (s : State) (v : BitVec 8)
@[simp] theorem State.setStatus_params : (s.setStatus v).params = s.params := rfl
@[simp] theorem State.setStatus_script : (s.setStatus v).script = s.script := rfl
@[simp] theorem State.setStatus_reply : (s.setStatus v).reply = s.reply := rfl
@[simp] theorem State.setStatus_status : (s.setStatus v).status = v := rfl
@[simp] theorem State.setStatus_srcBase : (s.setStatus v).srcBase = s.srcBase := rfl
@[simp] theorem State.setStatus_srcLen : (s.setStatus v).srcLen = s.srcLen := rfl
@[simp] theorem State.setStatus_dstBase : (s.setStatus v).dstBase = s.dstBase := rfl
@[simp] theorem State.setStatus_dstCap : (s.setStatus v).dstCap = s.dstCap := rfl
@[simp] theorem State.setStatus_payBase : (s.setStatus v).payBase = s.payBase := rfl
@[simp] theorem State.setStatus_payLen : (s.setStatus v).payLen = s.payLen := rfl
@[simp] theorem State.setStatus_hDst : (s.setStatus v).hDst = s.hDst := rfl
@[simp] theorem State.setStatus_hSrc : (s.setStatus v).hSrc = s.hSrc := rfl
@[simp] theorem State.setStatus_hEt : (s.setStatus v).hEt = s.hEt := rfl
@[simp] theorem State.setStatus_resLen : (s.setStatus v).resLen = s.resLen := rfl
@[simp] theorem State.setStatus_hwire : (s.setStatus v).hwire = s.hwire := rfl
@[simp] theorem State.setStatus_own : (s.setStatus v).own = s.own := rfl
@[simp] theorem State.setStatus_mem : (s.setStatus v).mem = s.mem := rfl
@[simp] theorem State.setStatus_header : (s.setStatus v).header = s.header := rfl
end setStatus

section setSrcBase
variable (s : State) (v : Nat)
@[simp] theorem State.setSrcBase_params : (s.setSrcBase v).params = s.params := rfl
@[simp] theorem State.setSrcBase_script : (s.setSrcBase v).script = s.script := rfl
@[simp] theorem State.setSrcBase_reply : (s.setSrcBase v).reply = s.reply := rfl
@[simp] theorem State.setSrcBase_status : (s.setSrcBase v).status = s.status := rfl
@[simp] theorem State.setSrcBase_srcBase : (s.setSrcBase v).srcBase = v := rfl
@[simp] theorem State.setSrcBase_srcLen : (s.setSrcBase v).srcLen = s.srcLen := rfl
@[simp] theorem State.setSrcBase_dstBase : (s.setSrcBase v).dstBase = s.dstBase := rfl
@[simp] theorem State.setSrcBase_dstCap : (s.setSrcBase v).dstCap = s.dstCap := rfl
@[simp] theorem State.setSrcBase_payBase : (s.setSrcBase v).payBase = s.payBase := rfl
@[simp] theorem State.setSrcBase_payLen : (s.setSrcBase v).payLen = s.payLen := rfl
@[simp] theorem State.setSrcBase_hDst : (s.setSrcBase v).hDst = s.hDst := rfl
@[simp] theorem State.setSrcBase_hSrc : (s.setSrcBase v).hSrc = s.hSrc := rfl
@[simp] theorem State.setSrcBase_hEt : (s.setSrcBase v).hEt = s.hEt := rfl
@[simp] theorem State.setSrcBase_resLen : (s.setSrcBase v).resLen = s.resLen := rfl
@[simp] theorem State.setSrcBase_hwire : (s.setSrcBase v).hwire = s.hwire := rfl
@[simp] theorem State.setSrcBase_own : (s.setSrcBase v).own = s.own := rfl
@[simp] theorem State.setSrcBase_mem : (s.setSrcBase v).mem = s.mem := rfl
@[simp] theorem State.setSrcBase_header : (s.setSrcBase v).header = s.header := rfl
end setSrcBase

section setSrcLen
variable (s : State) (v : Nat)
@[simp] theorem State.setSrcLen_params : (s.setSrcLen v).params = s.params := rfl
@[simp] theorem State.setSrcLen_script : (s.setSrcLen v).script = s.script := rfl
@[simp] theorem State.setSrcLen_reply : (s.setSrcLen v).reply = s.reply := rfl
@[simp] theorem State.setSrcLen_status : (s.setSrcLen v).status = s.status := rfl
@[simp] theorem State.setSrcLen_srcBase : (s.setSrcLen v).srcBase = s.srcBase := rfl
@[simp] theorem State.setSrcLen_srcLen : (s.setSrcLen v).srcLen = v := rfl
@[simp] theorem State.setSrcLen_dstBase : (s.setSrcLen v).dstBase = s.dstBase := rfl
@[simp] theorem State.setSrcLen_dstCap : (s.setSrcLen v).dstCap = s.dstCap := rfl
@[simp] theorem State.setSrcLen_payBase : (s.setSrcLen v).payBase = s.payBase := rfl
@[simp] theorem State.setSrcLen_payLen : (s.setSrcLen v).payLen = s.payLen := rfl
@[simp] theorem State.setSrcLen_hDst : (s.setSrcLen v).hDst = s.hDst := rfl
@[simp] theorem State.setSrcLen_hSrc : (s.setSrcLen v).hSrc = s.hSrc := rfl
@[simp] theorem State.setSrcLen_hEt : (s.setSrcLen v).hEt = s.hEt := rfl
@[simp] theorem State.setSrcLen_resLen : (s.setSrcLen v).resLen = s.resLen := rfl
@[simp] theorem State.setSrcLen_hwire : (s.setSrcLen v).hwire = s.hwire := rfl
@[simp] theorem State.setSrcLen_own : (s.setSrcLen v).own = s.own := rfl
@[simp] theorem State.setSrcLen_mem : (s.setSrcLen v).mem = s.mem := rfl
@[simp] theorem State.setSrcLen_header : (s.setSrcLen v).header = s.header := rfl
end setSrcLen

section setDstBase
variable (s : State) (v : Nat)
@[simp] theorem State.setDstBase_params : (s.setDstBase v).params = s.params := rfl
@[simp] theorem State.setDstBase_script : (s.setDstBase v).script = s.script := rfl
@[simp] theorem State.setDstBase_reply : (s.setDstBase v).reply = s.reply := rfl
@[simp] theorem State.setDstBase_status : (s.setDstBase v).status = s.status := rfl
@[simp] theorem State.setDstBase_srcBase : (s.setDstBase v).srcBase = s.srcBase := rfl
@[simp] theorem State.setDstBase_srcLen : (s.setDstBase v).srcLen = s.srcLen := rfl
@[simp] theorem State.setDstBase_dstBase : (s.setDstBase v).dstBase = v := rfl
@[simp] theorem State.setDstBase_dstCap : (s.setDstBase v).dstCap = s.dstCap := rfl
@[simp] theorem State.setDstBase_payBase : (s.setDstBase v).payBase = s.payBase := rfl
@[simp] theorem State.setDstBase_payLen : (s.setDstBase v).payLen = s.payLen := rfl
@[simp] theorem State.setDstBase_hDst : (s.setDstBase v).hDst = s.hDst := rfl
@[simp] theorem State.setDstBase_hSrc : (s.setDstBase v).hSrc = s.hSrc := rfl
@[simp] theorem State.setDstBase_hEt : (s.setDstBase v).hEt = s.hEt := rfl
@[simp] theorem State.setDstBase_resLen : (s.setDstBase v).resLen = s.resLen := rfl
@[simp] theorem State.setDstBase_hwire : (s.setDstBase v).hwire = s.hwire := rfl
@[simp] theorem State.setDstBase_own : (s.setDstBase v).own = s.own := rfl
@[simp] theorem State.setDstBase_mem : (s.setDstBase v).mem = s.mem := rfl
@[simp] theorem State.setDstBase_header : (s.setDstBase v).header = s.header := rfl
end setDstBase

section setDstCap
variable (s : State) (v : Nat)
@[simp] theorem State.setDstCap_params : (s.setDstCap v).params = s.params := rfl
@[simp] theorem State.setDstCap_script : (s.setDstCap v).script = s.script := rfl
@[simp] theorem State.setDstCap_reply : (s.setDstCap v).reply = s.reply := rfl
@[simp] theorem State.setDstCap_status : (s.setDstCap v).status = s.status := rfl
@[simp] theorem State.setDstCap_srcBase : (s.setDstCap v).srcBase = s.srcBase := rfl
@[simp] theorem State.setDstCap_srcLen : (s.setDstCap v).srcLen = s.srcLen := rfl
@[simp] theorem State.setDstCap_dstBase : (s.setDstCap v).dstBase = s.dstBase := rfl
@[simp] theorem State.setDstCap_dstCap : (s.setDstCap v).dstCap = v := rfl
@[simp] theorem State.setDstCap_payBase : (s.setDstCap v).payBase = s.payBase := rfl
@[simp] theorem State.setDstCap_payLen : (s.setDstCap v).payLen = s.payLen := rfl
@[simp] theorem State.setDstCap_hDst : (s.setDstCap v).hDst = s.hDst := rfl
@[simp] theorem State.setDstCap_hSrc : (s.setDstCap v).hSrc = s.hSrc := rfl
@[simp] theorem State.setDstCap_hEt : (s.setDstCap v).hEt = s.hEt := rfl
@[simp] theorem State.setDstCap_resLen : (s.setDstCap v).resLen = s.resLen := rfl
@[simp] theorem State.setDstCap_hwire : (s.setDstCap v).hwire = s.hwire := rfl
@[simp] theorem State.setDstCap_own : (s.setDstCap v).own = s.own := rfl
@[simp] theorem State.setDstCap_mem : (s.setDstCap v).mem = s.mem := rfl
@[simp] theorem State.setDstCap_header : (s.setDstCap v).header = s.header := rfl
end setDstCap

section setPayBase
variable (s : State) (v : Nat)
@[simp] theorem State.setPayBase_params : (s.setPayBase v).params = s.params := rfl
@[simp] theorem State.setPayBase_script : (s.setPayBase v).script = s.script := rfl
@[simp] theorem State.setPayBase_reply : (s.setPayBase v).reply = s.reply := rfl
@[simp] theorem State.setPayBase_status : (s.setPayBase v).status = s.status := rfl
@[simp] theorem State.setPayBase_srcBase : (s.setPayBase v).srcBase = s.srcBase := rfl
@[simp] theorem State.setPayBase_srcLen : (s.setPayBase v).srcLen = s.srcLen := rfl
@[simp] theorem State.setPayBase_dstBase : (s.setPayBase v).dstBase = s.dstBase := rfl
@[simp] theorem State.setPayBase_dstCap : (s.setPayBase v).dstCap = s.dstCap := rfl
@[simp] theorem State.setPayBase_payBase : (s.setPayBase v).payBase = v := rfl
@[simp] theorem State.setPayBase_payLen : (s.setPayBase v).payLen = s.payLen := rfl
@[simp] theorem State.setPayBase_hDst : (s.setPayBase v).hDst = s.hDst := rfl
@[simp] theorem State.setPayBase_hSrc : (s.setPayBase v).hSrc = s.hSrc := rfl
@[simp] theorem State.setPayBase_hEt : (s.setPayBase v).hEt = s.hEt := rfl
@[simp] theorem State.setPayBase_resLen : (s.setPayBase v).resLen = s.resLen := rfl
@[simp] theorem State.setPayBase_hwire : (s.setPayBase v).hwire = s.hwire := rfl
@[simp] theorem State.setPayBase_own : (s.setPayBase v).own = s.own := rfl
@[simp] theorem State.setPayBase_mem : (s.setPayBase v).mem = s.mem := rfl
@[simp] theorem State.setPayBase_header : (s.setPayBase v).header = s.header := rfl
end setPayBase

section setPayLen
variable (s : State) (v : Nat)
@[simp] theorem State.setPayLen_params : (s.setPayLen v).params = s.params := rfl
@[simp] theorem State.setPayLen_script : (s.setPayLen v).script = s.script := rfl
@[simp] theorem State.setPayLen_reply : (s.setPayLen v).reply = s.reply := rfl
@[simp] theorem State.setPayLen_status : (s.setPayLen v).status = s.status := rfl
@[simp] theorem State.setPayLen_srcBase : (s.setPayLen v).srcBase = s.srcBase := rfl
@[simp] theorem State.setPayLen_srcLen : (s.setPayLen v).srcLen = s.srcLen := rfl
@[simp] theorem State.setPayLen_dstBase : (s.setPayLen v).dstBase = s.dstBase := rfl
@[simp] theorem State.setPayLen_dstCap : (s.setPayLen v).dstCap = s.dstCap := rfl
@[simp] theorem State.setPayLen_payBase : (s.setPayLen v).payBase = s.payBase := rfl
@[simp] theorem State.setPayLen_payLen : (s.setPayLen v).payLen = v := rfl
@[simp] theorem State.setPayLen_hDst : (s.setPayLen v).hDst = s.hDst := rfl
@[simp] theorem State.setPayLen_hSrc : (s.setPayLen v).hSrc = s.hSrc := rfl
@[simp] theorem State.setPayLen_hEt : (s.setPayLen v).hEt = s.hEt := rfl
@[simp] theorem State.setPayLen_resLen : (s.setPayLen v).resLen = s.resLen := rfl
@[simp] theorem State.setPayLen_hwire : (s.setPayLen v).hwire = s.hwire := rfl
@[simp] theorem State.setPayLen_own : (s.setPayLen v).own = s.own := rfl
@[simp] theorem State.setPayLen_mem : (s.setPayLen v).mem = s.mem := rfl
@[simp] theorem State.setPayLen_header : (s.setPayLen v).header = s.header := rfl
end setPayLen

section setHDst
variable (s : State) (v : Mac)
@[simp] theorem State.setHDst_params : (s.setHDst v).params = s.params := rfl
@[simp] theorem State.setHDst_script : (s.setHDst v).script = s.script := rfl
@[simp] theorem State.setHDst_reply : (s.setHDst v).reply = s.reply := rfl
@[simp] theorem State.setHDst_status : (s.setHDst v).status = s.status := rfl
@[simp] theorem State.setHDst_srcBase : (s.setHDst v).srcBase = s.srcBase := rfl
@[simp] theorem State.setHDst_srcLen : (s.setHDst v).srcLen = s.srcLen := rfl
@[simp] theorem State.setHDst_dstBase : (s.setHDst v).dstBase = s.dstBase := rfl
@[simp] theorem State.setHDst_dstCap : (s.setHDst v).dstCap = s.dstCap := rfl
@[simp] theorem State.setHDst_payBase : (s.setHDst v).payBase = s.payBase := rfl
@[simp] theorem State.setHDst_payLen : (s.setHDst v).payLen = s.payLen := rfl
@[simp] theorem State.setHDst_hDst : (s.setHDst v).hDst = v := rfl
@[simp] theorem State.setHDst_hSrc : (s.setHDst v).hSrc = s.hSrc := rfl
@[simp] theorem State.setHDst_hEt : (s.setHDst v).hEt = s.hEt := rfl
@[simp] theorem State.setHDst_resLen : (s.setHDst v).resLen = s.resLen := rfl
@[simp] theorem State.setHDst_hwire : (s.setHDst v).hwire = s.hwire := rfl
@[simp] theorem State.setHDst_own : (s.setHDst v).own = s.own := rfl
@[simp] theorem State.setHDst_mem : (s.setHDst v).mem = s.mem := rfl
end setHDst

section setHSrc
variable (s : State) (v : Mac)
@[simp] theorem State.setHSrc_params : (s.setHSrc v).params = s.params := rfl
@[simp] theorem State.setHSrc_script : (s.setHSrc v).script = s.script := rfl
@[simp] theorem State.setHSrc_reply : (s.setHSrc v).reply = s.reply := rfl
@[simp] theorem State.setHSrc_status : (s.setHSrc v).status = s.status := rfl
@[simp] theorem State.setHSrc_srcBase : (s.setHSrc v).srcBase = s.srcBase := rfl
@[simp] theorem State.setHSrc_srcLen : (s.setHSrc v).srcLen = s.srcLen := rfl
@[simp] theorem State.setHSrc_dstBase : (s.setHSrc v).dstBase = s.dstBase := rfl
@[simp] theorem State.setHSrc_dstCap : (s.setHSrc v).dstCap = s.dstCap := rfl
@[simp] theorem State.setHSrc_payBase : (s.setHSrc v).payBase = s.payBase := rfl
@[simp] theorem State.setHSrc_payLen : (s.setHSrc v).payLen = s.payLen := rfl
@[simp] theorem State.setHSrc_hDst : (s.setHSrc v).hDst = s.hDst := rfl
@[simp] theorem State.setHSrc_hSrc : (s.setHSrc v).hSrc = v := rfl
@[simp] theorem State.setHSrc_hEt : (s.setHSrc v).hEt = s.hEt := rfl
@[simp] theorem State.setHSrc_resLen : (s.setHSrc v).resLen = s.resLen := rfl
@[simp] theorem State.setHSrc_hwire : (s.setHSrc v).hwire = s.hwire := rfl
@[simp] theorem State.setHSrc_own : (s.setHSrc v).own = s.own := rfl
@[simp] theorem State.setHSrc_mem : (s.setHSrc v).mem = s.mem := rfl
end setHSrc

section setHEt
variable (s : State) (v : EtCode)
@[simp] theorem State.setHEt_params : (s.setHEt v).params = s.params := rfl
@[simp] theorem State.setHEt_script : (s.setHEt v).script = s.script := rfl
@[simp] theorem State.setHEt_reply : (s.setHEt v).reply = s.reply := rfl
@[simp] theorem State.setHEt_status : (s.setHEt v).status = s.status := rfl
@[simp] theorem State.setHEt_srcBase : (s.setHEt v).srcBase = s.srcBase := rfl
@[simp] theorem State.setHEt_srcLen : (s.setHEt v).srcLen = s.srcLen := rfl
@[simp] theorem State.setHEt_dstBase : (s.setHEt v).dstBase = s.dstBase := rfl
@[simp] theorem State.setHEt_dstCap : (s.setHEt v).dstCap = s.dstCap := rfl
@[simp] theorem State.setHEt_payBase : (s.setHEt v).payBase = s.payBase := rfl
@[simp] theorem State.setHEt_payLen : (s.setHEt v).payLen = s.payLen := rfl
@[simp] theorem State.setHEt_hDst : (s.setHEt v).hDst = s.hDst := rfl
@[simp] theorem State.setHEt_hSrc : (s.setHEt v).hSrc = s.hSrc := rfl
@[simp] theorem State.setHEt_hEt : (s.setHEt v).hEt = v := rfl
@[simp] theorem State.setHEt_resLen : (s.setHEt v).resLen = s.resLen := rfl
@[simp] theorem State.setHEt_hwire : (s.setHEt v).hwire = s.hwire := rfl
@[simp] theorem State.setHEt_own : (s.setHEt v).own = s.own := rfl
@[simp] theorem State.setHEt_mem : (s.setHEt v).mem = s.mem := rfl
end setHEt

section setResLen
variable (s : State) (v : Nat)
@[simp] theorem State.setResLen_params : (s.setResLen v).params = s.params := rfl
@[simp] theorem State.setResLen_script : (s.setResLen v).script = s.script := rfl
@[simp] theorem State.setResLen_reply : (s.setResLen v).reply = s.reply := rfl
@[simp] theorem State.setResLen_status : (s.setResLen v).status = s.status := rfl
@[simp] theorem State.setResLen_srcBase : (s.setResLen v).srcBase = s.srcBase := rfl
@[simp] theorem State.setResLen_srcLen : (s.setResLen v).srcLen = s.srcLen := rfl
@[simp] theorem State.setResLen_dstBase : (s.setResLen v).dstBase = s.dstBase := rfl
@[simp] theorem State.setResLen_dstCap : (s.setResLen v).dstCap = s.dstCap := rfl
@[simp] theorem State.setResLen_payBase : (s.setResLen v).payBase = s.payBase := rfl
@[simp] theorem State.setResLen_payLen : (s.setResLen v).payLen = s.payLen := rfl
@[simp] theorem State.setResLen_hDst : (s.setResLen v).hDst = s.hDst := rfl
@[simp] theorem State.setResLen_hSrc : (s.setResLen v).hSrc = s.hSrc := rfl
@[simp] theorem State.setResLen_hEt : (s.setResLen v).hEt = s.hEt := rfl
@[simp] theorem State.setResLen_resLen : (s.setResLen v).resLen = v := rfl
@[simp] theorem State.setResLen_hwire : (s.setResLen v).hwire = s.hwire := rfl
@[simp] theorem State.setResLen_own : (s.setResLen v).own = s.own := rfl
@[simp] theorem State.setResLen_mem : (s.setResLen v).mem = s.mem := rfl
@[simp] theorem State.setResLen_header : (s.setResLen v).header = s.header := rfl
end setResLen

section setHwire
variable (s : State) (v : Wire)
@[simp] theorem State.setHwire_params : (s.setHwire v).params = s.params := rfl
@[simp] theorem State.setHwire_script : (s.setHwire v).script = s.script := rfl
@[simp] theorem State.setHwire_reply : (s.setHwire v).reply = s.reply := rfl
@[simp] theorem State.setHwire_status : (s.setHwire v).status = s.status := rfl
@[simp] theorem State.setHwire_srcBase : (s.setHwire v).srcBase = s.srcBase := rfl
@[simp] theorem State.setHwire_srcLen : (s.setHwire v).srcLen = s.srcLen := rfl
@[simp] theorem State.setHwire_dstBase : (s.setHwire v).dstBase = s.dstBase := rfl
@[simp] theorem State.setHwire_dstCap : (s.setHwire v).dstCap = s.dstCap := rfl
@[simp] theorem State.setHwire_payBase : (s.setHwire v).payBase = s.payBase := rfl
@[simp] theorem State.setHwire_payLen : (s.setHwire v).payLen = s.payLen := rfl
@[simp] theorem State.setHwire_hDst : (s.setHwire v).hDst = s.hDst := rfl
@[simp] theorem State.setHwire_hSrc : (s.setHwire v).hSrc = s.hSrc := rfl
@[simp] theorem State.setHwire_hEt : (s.setHwire v).hEt = s.hEt := rfl
@[simp] theorem State.setHwire_resLen : (s.setHwire v).resLen = s.resLen := rfl
@[simp] theorem State.setHwire_hwire : (s.setHwire v).hwire = v := rfl
@[simp] theorem State.setHwire_own : (s.setHwire v).own = s.own := rfl
@[simp] theorem State.setHwire_mem : (s.setHwire v).mem = s.mem := rfl
@[simp] theorem State.setHwire_header : (s.setHwire v).header = s.header := rfl
end setHwire

section setOwn
variable (s : State) (b : List Byte)
@[simp] theorem State.setOwn_params : (s.setOwn b).params = s.params := rfl
@[simp] theorem State.setOwn_script : (s.setOwn b).script = s.script := rfl
@[simp] theorem State.setOwn_reply : (s.setOwn b).reply = s.reply := rfl
@[simp] theorem State.setOwn_status : (s.setOwn b).status = s.status := rfl
@[simp] theorem State.setOwn_srcBase : (s.setOwn b).srcBase = s.srcBase := rfl
@[simp] theorem State.setOwn_srcLen : (s.setOwn b).srcLen = s.srcLen := rfl
@[simp] theorem State.setOwn_dstBase : (s.setOwn b).dstBase = s.dstBase := rfl
@[simp] theorem State.setOwn_dstCap : (s.setOwn b).dstCap = s.dstCap := rfl
@[simp] theorem State.setOwn_payBase : (s.setOwn b).payBase = s.payBase := rfl
@[simp] theorem State.setOwn_payLen : (s.setOwn b).payLen = s.payLen := rfl
@[simp] theorem State.setOwn_hDst : (s.setOwn b).hDst = s.hDst := rfl
@[simp] theorem State.setOwn_hSrc : (s.setOwn b).hSrc = s.hSrc := rfl
@[simp] theorem State.setOwn_hEt : (s.setOwn b).hEt = s.hEt := rfl
@[simp] theorem State.setOwn_resLen : (s.setOwn b).resLen = s.resLen := rfl
@[simp] theorem State.setOwn_hwire : (s.setOwn b).hwire = s.hwire := rfl
@[simp] theorem State.setOwn_own : (s.setOwn b).own = b := rfl
@[simp] theorem State.setOwn_mem : (s.setOwn b).mem = s.mem := rfl
@[simp] theorem State.setOwn_header : (s.setOwn b).header = s.header := rfl
end setOwn

section setMem
variable (s : State) (m : Memory)
@[simp] theorem State.setMem_params : (s.setMem m).params = s.params := rfl
@[simp] theorem State.setMem_script : (s.setMem m).script = s.script := rfl
@[simp] theorem State.setMem_reply : (s.setMem m).reply = s.reply := rfl
@[simp] theorem State.setMem_status : (s.setMem m).status = s.status := rfl
@[simp] theorem State.setMem_srcBase : (s.setMem m).srcBase = s.srcBase := rfl
@[simp] theorem State.setMem_srcLen : (s.setMem m).srcLen = s.srcLen := rfl
@[simp] theorem State.setMem_dstBase : (s.setMem m).dstBase = s.dstBase := rfl
@[simp] theorem State.setMem_dstCap : (s.setMem m).dstCap = s.dstCap := rfl
@[simp] theorem State.setMem_payBase : (s.setMem m).payBase = s.payBase := rfl
@[simp] theorem State.setMem_payLen : (s.setMem m).payLen = s.payLen := rfl
@[simp] theorem State.setMem_hDst : (s.setMem m).hDst = s.hDst := rfl
@[simp] theorem State.setMem_hSrc : (s.setMem m).hSrc = s.hSrc := rfl
@[simp] theorem State.setMem_hEt : (s.setMem m).hEt = s.hEt := rfl
@[simp] theorem State.setMem_resLen : (s.setMem m).resLen = s.resLen := rfl
@[simp] theorem State.setMem_hwire : (s.setMem m).hwire = s.hwire := rfl
@[simp] theorem State.setMem_own : (s.setMem m).own = s.own := rfl
@[simp] theorem State.setMem_mem : (s.setMem m).mem = m := rfl
@[simp] theorem State.setMem_header : (s.setMem m).header = s.header := rfl
end setMem

section setHeader
variable (s : State) (h : Header)
@[simp] theorem State.setHeader_params : (s.setHeader h).params = s.params := rfl
@[simp] theorem State.setHeader_script : (s.setHeader h).script = s.script := rfl
@[simp] theorem State.setHeader_reply : (s.setHeader h).reply = s.reply := rfl
@[simp] theorem State.setHeader_status : (s.setHeader h).status = s.status := rfl
@[simp] theorem State.setHeader_srcBase : (s.setHeader h).srcBase = s.srcBase := rfl
@[simp] theorem State.setHeader_srcLen : (s.setHeader h).srcLen = s.srcLen := rfl
@[simp] theorem State.setHeader_dstBase : (s.setHeader h).dstBase = s.dstBase := rfl
@[simp] theorem State.setHeader_dstCap : (s.setHeader h).dstCap = s.dstCap := rfl
@[simp] theorem State.setHeader_payBase : (s.setHeader h).payBase = s.payBase := rfl
@[simp] theorem State.setHeader_payLen : (s.setHeader h).payLen = s.payLen := rfl
@[simp] theorem State.setHeader_hDst : (s.setHeader h).hDst = h.dst := rfl
@[simp] theorem State.setHeader_hSrc : (s.setHeader h).hSrc = h.src := rfl
@[simp] theorem State.setHeader_hEt : (s.setHeader h).hEt = h.et := rfl
@[simp] theorem State.setHeader_resLen : (s.setHeader h).resLen = s.resLen := rfl
@[simp] theorem State.setHeader_hwire : (s.setHeader h).hwire = s.hwire := rfl
@[simp] theorem State.setHeader_own : (s.setHeader h).own = s.own := rfl
@[simp] theorem State.setHeader_mem : (s.setHeader h).mem = s.mem := rfl
end setHeader

@[simp] theorem State.setHeader_header (s : State) (h : Header) : (s.setHeader h).header = h := rfl

/-- The launch state's registers are zero whatever the launch's inputs (R41). -/
@[simp] theorem State.launch_script (p : Params) (m : Memory) (ops : List HostOp) : (State.launch p m ops).script = ops := rfl
@[simp] theorem State.launch_params (p : Params) (m : Memory) (ops : List HostOp) : (State.launch p m ops).params = p := rfl
@[simp] theorem State.launch_mem (p : Params) (m : Memory) (ops : List HostOp) : (State.launch p m ops).mem = m := rfl
@[simp] theorem State.launch_own (p : Params) (m : Memory) (ops : List HostOp) : (State.launch p m ops).own = [] := rfl
@[simp] theorem State.launch_header (p : Params) (m : Memory) (ops : List HostOp) : (State.launch p m ops).header = ⟨0#48, 0#48, 0#16⟩ := rfl

end Sys2Proof.Machine
end

