-- ==== Sys2Proof/Laws/Ops.lean ====
section
/-! SUPPORT. What each shared operation can answer, said once: raising, refusing, completing, storing a frame, the host's
operations, the step. -/

namespace Sys2Proof.Machine

@[simp] theorem refuse_eq (r : Refusal) : refuse r = .refused r := rfl

/-- Raising a condition answers a next state that differs in STATUS only (R15, R156). -/
@[simp] theorem raise_eq (c : Condition) (s : State) : raise c s = .next (s.setStatus c.code) := rfl

/-- Completing answers a next state with RES_LEN and STATUS written, STATUS 0 (R35, R36). -/
@[simp] theorem complete_eq (n : Nat) (s : State) : complete n s = .next ((s.setResLen n).setStatus 0#8) := rfl

/-- A raised condition never leaves STATUS 0 (R151). -/
theorem Condition.code_ne_zero (c : Condition) : c.code ≠ 0#8 := by cases c <;> decide

/-- Every condition's code leaves the reserved bits of STATUS 0 (R35). -/
theorem Condition.code_lt_four (c : Condition) : c.code.toNat < 4 := by cases c <;> decide

/-- The header and payload writes of an encode are one write of the frame's image (R81). -/
theorem State.storeFrame_mem (s : State) (p : List Byte) :
    (s.storeFrame p).mem = s.mem.writeN s.dstBase (hdrPack s.header ++ p) := by
  rw [Memory.writeN_append, hdrPack_length]; rfl

/-- Storing a frame changes M only. -/
theorem State.storeFrame_eq (s : State) (p : List Byte) :
    s.storeFrame p = s.setMem (s.mem.writeN s.dstBase (hdrPack s.header ++ p)) := by
  rw [← State.storeFrame_mem]; rfl

@[simp] theorem State.payload_length (s : State) : s.payload.length = s.payLen := Memory.readN_length ..

/-- `MW` answers a next state exactly when its range is well-formed, and then M alone has changed (R143). -/
theorem hostMw_next {addr : Nat} {b : List Byte} {s t : State} (h : hostMw addr b s = .next t) :
    wellFormedRange s.params addr b.length = true ∧ t = s.setMem (s.mem.writeN addr b) := by
  unfold hostMw at h; split at h
  · exact ⟨‹_›, by simpa using h.symm⟩
  · simp at h

/-- `MW` is refused only for its descriptor (R143). -/
theorem hostMw_refused {addr : Nat} {b : List Byte} {s : State} {r : Refusal} (h : hostMw addr b s = .refused r) :
    wellFormedRange s.params addr b.length = false ∧ r = .badDescriptor := by
  unfold hostMw at h; split at h
  · simp at h
  · simp_all

/-- What `WR` can do (R141, R146): a register write, or a command. -/
theorem hostWr_next {n v : Nat} {s t : State} (h : hostWr n v s = .next t) :
    ∃ r, regOfNumber n = some r ∧ r.access ≠ .readOnly ∧ v < 2 ^ r.width s.params ∧
      ((r = .cmd ∧ issueCommand (BitVec.ofNat 8 v) s = .next t) ∨ (r ≠ .cmd ∧ t = s.writeReg r v)) := by
  unfold hostWr at h
  split at h
  · simp at h
  · rename_i r hr
    split at h
    · simp at h
    · split at h
      · simp at h
      · refine ⟨r, hr, ‹_›, by omega, ?_⟩
        split at h
        · exact .inl ⟨‹_›, h⟩
        · exact .inr ⟨‹_›, by simpa using h.symm⟩

/-- Issuing a command word runs the command it selects (R146). -/
theorem issueCommand_next {c : Byte} {s t : State} (h : issueCommand c s = .next t) :
    ∃ i, decode .cmd8 [c] = .ok i ∧ exec i s = .next t := by
  unfold issueCommand at h; split at h
  · exact ⟨_, ‹_›, h⟩
  · simp at h

/-- `RD` changes the reply only (R142). -/
theorem hostRd_next {n : Nat} {s t : State} (h : hostRd n s = .next t) :
    ∃ r v, regOfNumber n = some r ∧ s.readReg r = some v ∧ t = s.setReply (.value v) := by
  unfold hostRd at h
  split at h
  · simp at h
  · split at h
    · simp at h
    · exact ⟨_, _, ‹_›, ‹_›, by simpa using h.symm⟩

/-- `MR` changes the reply only (R143). -/
theorem hostMr_next {addr n : Nat} {s t : State} (h : hostMr addr n s = .next t) :
    wellFormedRange s.params addr n = true ∧ t = s.setReply (.bytes (s.mem.readN addr n)) := by
  unfold hostMr at h; split at h
  · exact ⟨‹_›, by simpa using h.symm⟩
  · simp at h

/-- `OLOAD` changes OWN only (R144). -/
theorem hostOload_next {b : List Byte} {s t : State} (h : hostOload b s = .next t) :
    b.length ≤ s.params.ownCap ∧ t = s.setOwn b := by
  unfold hostOload at h; split at h
  · simp at h
  · exact ⟨by omega, by simpa using h.symm⟩

/-- `OR` changes the reply only (R145). -/
theorem hostOwnRead_next {i : Nat} {s t : State} (h : hostOwnRead i s = .next t) :
    ∃ b, s.own[i]? = some b ∧ t = s.setReply (.byte b) := by
  unfold hostOwnRead at h; split at h
  · simp at h
  · exact ⟨_, ‹_›, by simpa using h.symm⟩

/-- The step with an operation waiting performs it, taken off the script (R140). -/
theorem step_cons {s : State} {op : HostOp} {rest : List HostOp} (h : s.script = op :: rest) :
    step s = hostStep op (s.setScript rest) := by
  simp only [step, runNext, h]

/-- What a step that answers a next state did: nothing, with no operation waiting, or one host operation. -/
theorem step_next {s t : State} (h : step s = .next t) :
    (s.script = [] ∧ t = s) ∨ ∃ op rest, s.script = op :: rest ∧ hostStep op (s.setScript rest) = .next t := by
  unfold step runNext at h
  split at h
  · exact .inl ⟨‹_›, by simpa using h.symm⟩
  · exact .inr ⟨_, _, ‹_›, h⟩

/-- Handing over a word and taking the operation off the script again leaves the state as it was. -/
theorem State.setScript_withFetchWord (s : State) (nbits w : Nat) :
    (s.withFetchWord nbits w).setScript s.script = s := rfl

/-- The step after a word is handed over performs the operation that carries it. -/
theorem step_withFetchWord (s : State) (nbits w : Nat) :
    step (s.withFetchWord nbits w) = hostStep (carryWord s nbits w) s := rfl

end Sys2Proof.Machine
end

