-- ==== Sys2Proof/Laws/Invariant.lean ====
section
/-! SUPPORT. What each named update needs so that the invariant survives it. -/

namespace Sys2Proof.Machine

variable {s : State}

/-- The invariant speaks of these fields only. -/
theorem State.Inv.congr {t : State} (h : s.Inv) (hp : t.params = s.params) (hf : t.Fits) (h4 : t.status.toNat < 4)
    (ho : t.own.length ≤ s.params.ownCap) (hm : t.mem.wf) (hi : ∀ c ∈ t.mem, inMem s.params c.1 = true) : t.Inv := by
  refine ⟨?_, hf, h4, ?_, hm, ?_⟩
  · rw [hp]; exact h.1
  · rw [hp]; exact ho
  · rw [hp]; exact hi

theorem State.Inv.setScript (h : s.Inv) (ops : List HostOp) : (s.setScript ops).Inv := h

theorem State.Inv.setReply (h : s.Inv) (r : Reply) : (s.setReply r).Inv := h

theorem State.Inv.setHeader (h : s.Inv) (x : Header) : (s.setHeader x).Inv := h

theorem State.Inv.setHwire (h : s.Inv) (w : Wire) : (s.setHwire w).Inv := h

theorem State.Inv.setStatus (h : s.Inv) {v : BitVec 8} (hv : v.toNat < 4) : (s.setStatus v).Inv :=
  h.congr rfl h.2.1 hv h.2.2.2.1 h.2.2.2.2.1 h.2.2.2.2.2

theorem State.Inv.setResLen (h : s.Inv) {n : Nat} (hn : n < 2 ^ (s.params.lw + 1)) : (s.setResLen n).Inv := by
  obtain ⟨f1, f2, f3, f4, f5, f6, _⟩ := h.2.1
  exact h.congr rfl ⟨f1, f2, f3, f4, f5, f6, hn⟩ h.2.2.1 h.2.2.2.1 h.2.2.2.2.1 h.2.2.2.2.2

theorem State.Inv.setPayBase (h : s.Inv) {n : Nat} (hn : n < 2 ^ s.params.aw) : (s.setPayBase n).Inv := by
  obtain ⟨f1, f2, f3, f4, _, f6, f7⟩ := h.2.1
  exact h.congr rfl ⟨f1, f2, f3, f4, hn, f6, f7⟩ h.2.2.1 h.2.2.2.1 h.2.2.2.2.1 h.2.2.2.2.2

theorem State.Inv.setPayLen (h : s.Inv) {n : Nat} (hn : n < 2 ^ s.params.lw) : (s.setPayLen n).Inv := by
  obtain ⟨f1, f2, f3, f4, f5, _, f7⟩ := h.2.1
  exact h.congr rfl ⟨f1, f2, f3, f4, f5, hn, f7⟩ h.2.2.1 h.2.2.2.1 h.2.2.2.2.1 h.2.2.2.2.2

theorem State.Inv.setOwn (h : s.Inv) {b : List Byte} (hb : b.length ≤ s.params.ownCap) : (s.setOwn b).Inv :=
  h.congr rfl h.2.1 h.2.2.1 hb h.2.2.2.2.1 h.2.2.2.2.2

/-- A wide write to addresses of `MEM` keeps the invariant. -/
theorem State.Inv.writeN (h : s.Inv) {addr : Nat} {bs : List Byte}
    (hin : ∀ k, k < bs.length → inMem s.params (addr + k) = true) : (s.setMem (s.mem.writeN addr bs)).Inv := by
  refine h.congr rfl h.2.1 h.2.2.1 h.2.2.2.1 (Memory.wf_writeN _ _ _ h.2.2.2.2.1) fun c hc => ?_
  rcases Memory.mem_writeN hc with ⟨h1, h2⟩ | hc
  · have := hin (c.1 - addr) (by omega)
    rwa [show addr + (c.1 - addr) = c.1 by omega] at this
  · exact h.2.2.2.2.2 c hc

/-- Raising a condition keeps the invariant. -/
theorem State.Inv.raise (h : s.Inv) (c : Condition) : (s.setStatus c.code).Inv := h.setStatus c.code_lt_four

/-- Completing keeps the invariant when the reported length fits RES_LEN. -/
theorem State.Inv.complete (h : s.Inv) {n : Nat} (hn : n < 2 ^ (s.params.lw + 1)) :
    ((s.setResLen n).setStatus 0#8).Inv := (h.setResLen hn).setStatus (by decide)

/-- A length of 14 and a length that fits a length register is a length that fits RES_LEN (R124). -/
theorem fourteen_add_lt {p : Params} (h : p.Valid) {n : Nat} (hn : n < 2 ^ p.lw) :
    14 + n < 2 ^ (p.lw + 1) := by
  have h16 : 2 ^ 4 ≤ 2 ^ p.lw := Nat.pow_le_pow_right (by decide) h.2.1
  have : 2 ^ (p.lw + 1) = 2 ^ p.lw * 2 := pow_succ 2 p.lw
  omega

end Sys2Proof.Machine
end

