-- ==== Sys2Proof/Laws/PerInstr.lean ====
section
/-! SUPPORT. A statement about every instruction as syntax: its encoding has the length its format gives it (R80, R81,
R85). -/

namespace Sys2Proof.Laws.EncodedLength

/-- The length in bytes that the format of an instruction's row gives its encoding. -/
def rowLength : Instr → Nat
  | .eth2Header _ _ _ => hdrLen
  | .eth2Frame _ _ _ payload => hdrLen + payload.length
  | .etypeIpv6 => etLen
  | .etypeUnknown _ => etLen
  | .hdec14 => 1
  | .henc14 => 1
  | .hdec => 1
  | .henc => 1
  | .fdec => 1
  | .fenc => 1
  | .flen => 1
  | .odec => 1
  | .oenc => 1
  | .toown => 1
  | .olen => 1

/-- The encoding of an instruction has its row's length. -/
def Statement (i : Instr) : Prop := (encode i).length = rowLength i

theorem hdec14 : Statement .hdec14 := rfl
theorem henc14 : Statement .henc14 := rfl
theorem hdec : Statement .hdec := rfl
theorem henc : Statement .henc := rfl
theorem fdec : Statement .fdec := rfl
theorem fenc : Statement .fenc := rfl
theorem flen : Statement .flen := rfl
theorem odec : Statement .odec := rfl
theorem oenc : Statement .oenc := rfl
theorem toown : Statement .toown := rfl
theorem olen : Statement .olen := rfl

theorem eth2Header (dst src : Mac) (et : EtCode) : Statement (.eth2Header dst src et) := hdrPack_length _

theorem eth2Frame (dst src : Mac) (et : EtCode) (payload : List Byte) : Statement (.eth2Frame dst src et payload) := by
  simp [Statement, encode, rowLength]

theorem etypeIpv6 : Statement .etypeIpv6 := rfl
theorem etypeUnknown (raw : EtCode) : Statement (.etypeUnknown raw) := rfl

end Sys2Proof.Laws.EncodedLength
end

