-- ==== Sys2Proof/Tests/Slice0.lean ====
section
/-! SUPPORT. The session's own tests: expected values are those of 95_test_vectors.md (the vector's id stands beside each
test) or worked out by hand from the rule named; and the witnesses that the statements' hypotheses can be met. -/

namespace Sys2Proof.Tests

open Sys2Proof.Machine

/-! ### Helpers -/

/-- The next state of an answer. -/
def nextOf : Result → Option State
  | .next s => some s
  | .fault _ => none
  | .refused _ => none

/-- The reason of a refused answer. -/
def refusalOf : Result → Option Refusal
  | .next _ => none
  | .fault _ => none
  | .refused r => some r

theorem next_of {r : Result} {p : State → Bool} (h : (nextOf r).any p = true) : ∃ t, r = .next t ∧ p t = true := by
  cases r with
  | next s => exact ⟨s, rfl, h⟩
  | fault f => cases f
  | refused x => cases h

theorem next_of_next {r : Result} {f : State → Result} {p q : State → Bool}
    (h : (nextOf r).any (fun t => p t && (nextOf (f t)).any q) = true) :
    ∃ t u, r = .next t ∧ p t = true ∧ f t = .next u ∧ q u = true := by
  obtain ⟨t, ht, h⟩ := next_of h
  rw [Bool.and_eq_true] at h
  obtain ⟨u, hu, hq⟩ := next_of h.2
  exact ⟨t, u, ht, h.1, hu, hq⟩

theorem refused_of {r : Result} {x : Refusal} (h : refusalOf r = some x) : r = .refused x := by
  cases r with
  | next s => cases h
  | fault f => cases f
  | refused y => cases h; rfl

/-- A byte sequence listed in M from an address on. -/
def cells (addr : Nat) (b : List Byte) : Memory := b.mapIdx fun i x => (addr + i, x)

/-- FRAME16: the source's worked example (S1). -/
def frame16 : List Byte :=
  [0x00#8, 0x80#8, 0x41#8, 0xff#8, 0xf0#8, 0x0d#8, 0x00#8, 0x80#8, 0x41#8, 0xba#8, 0xbe#8, 0xff#8, 0x86#8, 0xdd#8, 0xaa#8, 0xbb#8]

/-- HDR14: its first 14 bytes. -/
def hdr14 : List Byte := frame16.take 14

/-- `n` filler bytes. -/
def filler (n : Nat) : List Byte := List.replicate n 0xee#8

/-- The vectors' fixture: FRAME16 at 0x1000, twenty filler bytes at 0x2000, the source descriptor on the frame, the
destination descriptor on 16 bytes of the filler. -/
def fix : State :=
  { State.reset with
    mem := cells 0x1000 frame16 ++ cells 0x2000 (filler 20), srcBase := 0x1000, srcLen := 16, dstBase := 0x2000, dstCap := 16 }

/-- The fixture after the FDEC of V-F1. -/
def fixF : State :=
  { fix with
    hDst := 0x008041FFF00D#48, hSrc := 0x008041BABEFF#48, hEt := 0x86DD#16, payBase := 0x100E, payLen := 2, resLen := 16 }

/-- The fixture after the ODEC of V-O1. -/
def fixO : State :=
  { fix with
    hDst := 0x008041FFF00D#48, hSrc := 0x008041BABEFF#48, hEt := 0x86DD#16, own := [0xaa#8, 0xbb#8], resLen := 16 }

/-- The header register of a state. -/
def regsOf (s : State) : Mac × Mac × EtCode × Nat × BitVec 8 := (s.hDst, s.hSrc, s.hEt, s.resLen, s.status)

/-! ### WellFormed: an ill-formed term for each check -/

theorem test_frame_without_payload_is_ill_formed : (Instr.eth2Frame 1#48 2#48 3#16 []).wellFormed = false := by decide
theorem test_frame_with_payload_is_well_formed : (Instr.eth2Frame 1#48 2#48 3#16 [0#8]).wellFormed = true := by decide
theorem test_known_code_is_no_unknown : (Instr.etypeUnknown 0x86DD#16).wellFormed = false := by decide

/-! ### Decoding: words written out from R80, R81, R86, R88 -/

theorem test_decode_hdec14 : decode .cmd8 [0b00000001#8] = .ok .hdec14 := by decide
theorem test_decode_henc14 : decode .cmd8 [0b00000010#8] = .ok .henc14 := by decide
theorem test_decode_hdec : decode .cmd8 [0b00000011#8] = .ok .hdec := by decide
theorem test_decode_henc : decode .cmd8 [0b00000100#8] = .ok .henc := by decide
theorem test_decode_fdec : decode .cmd8 [0b00000101#8] = .ok .fdec := by decide
theorem test_decode_fenc : decode .cmd8 [0b00000110#8] = .ok .fenc := by decide
theorem test_decode_flen : decode .cmd8 [0b00000111#8] = .ok .flen := by decide
theorem test_decode_odec : decode .cmd8 [0b00001000#8] = .ok .odec := by decide
theorem test_decode_oenc : decode .cmd8 [0b00001001#8] = .ok .oenc := by decide
theorem test_decode_toown : decode .cmd8 [0b00001010#8] = .ok .toown := by decide
theorem test_decode_olen : decode .cmd8 [0b00001011#8] = .ok .olen := by decide
theorem test_decode_header :
    decode .wire112 hdr14 = .ok (.eth2Header 0x008041FFF00D#48 0x008041BABEFF#48 0x86DD#16) := by decide
theorem test_decode_frame :
    decode .wireFrame frame16 = .ok (.eth2Frame 0x008041FFF00D#48 0x008041BABEFF#48 0x86DD#16 [0xaa#8, 0xbb#8]) := by decide
theorem test_decode_ipv6 : decode .etype16 [0b10000110#8, 0b11011101#8] = .ok .etypeIpv6 := by decide
/-- V-T4: big-endian, not swapped. -/
theorem test_decode_unknown : decode .etype16 [0x08#8, 0x06#8] = .ok (.etypeUnknown 0x0806#16) := by decide
theorem test_decode_reserved_op : decode .cmd8 [0x0C#8] = .error .reservedOp := by decide
theorem test_decode_reserved_bits : decode .cmd8 [0x11#8] = .error .reservedBits := by decide
theorem test_decode_wrong_length : decode .wire112 frame16 = .error .wrongLength := by decide
theorem test_decode_frame_of_header_only : decode .wireFrame hdr14 = .error .wrongLength := by decide

theorem test_table_word_command : decodeTableWord 8 0x05 = some .fdec := by decide
theorem test_table_word_etype : decodeTableWord 16 0x86DD = some .etypeIpv6 := by decide
theorem test_table_word_header :
    decodeTableWord 112 0x008041FFF00D008041BABEFF86DD = some (.eth2Header 0x008041FFF00D#48 0x008041BABEFF#48 0x86DD#16) := by
  decide
theorem test_table_word_frame :
    decodeTableWord 120 0xaa008041FFF00D008041BABEFF86DD =
      some (.eth2Frame 0x008041FFF00D#48 0x008041BABEFF#48 0x86DD#16 [0xaa#8]) := by decide

/-! ### Field types -/

/-- V-T1, V-T2. -/
theorem test_mac_decode : macDecode [0x01#8, 0x02#8, 0x03#8, 0x04#8, 0x05#8, 0x06#8] = 0x010203040506#48 := by decide
/-- R101's example. -/
theorem test_mac_encode : macEncode 0x008041BABEFF#48 = [0x00#8, 0x80#8, 0x41#8, 0xba#8, 0xbe#8, 0xff#8] := by decide
/-- V-T5. -/
theorem test_et_class :
    [0x86DD#16, 0x0800#16, 0x0000#16, 0xFFFF#16, 0xDD86#16].map (fun c => etPack (etDecode Config.reference c)) =
      [0x10000#17, 0x00800#17, 0x00000#17, 0x0FFFF#17, 0x0DD86#17] := by decide

/-! ### The commands, one step each -/

/-- V-H3. -/
theorem test_hdec14 :
    (nextOf (exec .hdec14 { State.reset with hwire := 0x0102030405060708090A0B0C0D0E#112 })).map regsOf =
      some (0x010203040506#48, 0x0708090A0B0C#48, 0x0D0E#16, 14, 0#8) := by decide
/-- V-H4. -/
theorem test_henc14 :
    (nextOf (exec .henc14 { State.reset with hDst := 0xFFFFFFFFFFFF#48, hSrc := 0#48, hEt := 0xFFFF#16 })).map
      (fun t => (t.hwire, t.resLen, t.status)) = some (0xFFFFFFFFFFFF000000000000FFFF#112, 14, 0#8) := by decide
/-- V-H5. -/
theorem test_hdec_too_short :
    (nextOf (exec .hdec { fix with srcLen := 13 })).map regsOf = some (0#48, 0#48, 0#16, 0, 1#8) := by decide
/-- V-H8. -/
theorem test_hdec_longer_buffer :
    (nextOf (exec .hdec fix)).map (fun t => (regsOf t, t.payBase, t.payLen)) =
      some ((0x008041FFF00D#48, 0x008041BABEFF#48, 0x86DD#16, 14, 0#8), 0, 0) := by decide
/-- V-H10. -/
theorem test_henc_too_short :
    (nextOf (exec .henc { fixF with dstCap := 13 })).map (fun t => (t.mem == fix.mem, t.status)) = some (true, 3#8) := by decide
/-- V-H12: fourteen bytes written, offsets 14 to 19 keep the filler. -/
theorem test_henc_writes_fourteen :
    (nextOf (exec .henc { fixF with dstCap := 20 })).map (fun t => (t.mem == cells 0x1000 frame16 ++ cells 0x2000 (hdr14 ++ filler 6), t.resLen)) =
      some (true, 14) := by decide
/-- V-F1. -/
theorem test_fdec : (nextOf (exec .fdec fix)) = some fixF := by decide
/-- V-F2. -/
theorem test_fdec_no_body : (nextOf (exec .fdec { fix with srcLen := 14 })).map (fun t => (regsOf t, t.payLen)) =
    some ((0#48, 0#48, 0#16, 0, 2#8), 0) := by decide
/-- V-F5b. -/
theorem test_fenc : (nextOf (exec .fenc fixF)).map (fun t => (t.mem == cells 0x1000 frame16 ++ cells 0x2000 (frame16 ++ filler 4), t.resLen, t.status)) =
    some (true, 16, 0#8) := by decide
/-- V-F8d, V-F8e, V-F8f: the test is on the whole destination range, before the capacity comparison. -/
theorem test_fenc_overlap :
    refusalOf (exec .fenc { fixF with dstBase := 0x0F00, dstCap := 0x0200 }) = some .overlap ∧
    refusalOf (exec .fenc { fixF with dstBase := 0x100F, dstCap := 1 }) = some .overlap ∧
    (nextOf (exec .fenc { fixF with dstBase := 0x1000, dstCap := 14 })).map (fun t => t.status) = some 3#8 := by decide +kernel
/-- V-F6: bit LW of RES_LEN. -/
theorem test_flen : (nextOf (exec .flen { State.reset with payLen := 0xFFFF })).map (fun t => t.resLen) = some 0x1000D := by decide
/-- V-O9: replaced, not appended; PAY_BASE and PAY_LEN stay. -/
theorem test_odec : nextOf (exec .odec { fix with own := [1#8, 2#8, 3#8, 4#8, 5#8] }) = some fixO := by decide
/-- V-O12. -/
theorem test_odec_capacity :
    refusalOf (exec .odec { fix with srcLen := 19, params := { Config.reference with ownCap := 4 } }) = some .ownCapacity ∧
    (nextOf (exec .odec { fix with srcLen := 14, params := { Config.reference with ownCap := 4 } })).map (fun t => t.status) = some 2#8 := by
  decide
/-- V-O4a. -/
theorem test_oenc_too_short : (nextOf (exec .oenc { fixO with dstCap := 15 })).map (fun t => (t.mem == fix.mem, t.status, t.resLen)) =
    some (true, 3#8, 16) := by decide
/-- V-O10: no overlap refusal. -/
theorem test_oenc_over_source : (nextOf (exec .oenc { fixO with dstBase := 0x1000 })).map (fun t => (t.mem == fix.mem, t.status)) =
    some (true, 0#8) := by decide
/-- V-O6. -/
theorem test_toown : (nextOf (exec .toown fixF)).map (fun t => (t.own, t.resLen, t.payLen)) = some ([0xaa#8, 0xbb#8], 16, 2) := by decide
/-- V-O7. -/
theorem test_toown_empty : (nextOf (exec .toown fixO)).map (fun t => (t.own, t.resLen)) = some ([], 16) := by decide
/-- V-O8. -/
theorem test_olen : (nextOf (exec .olen fixO)).map (fun t => (t.resLen, t.status)) = some (16, 0#8) := by decide
/-- R30, R141: the image of V-H1 in HWIRE. -/
theorem test_header_row : (nextOf (exec (.eth2Header 0x008041FFF00D#48 0x008041BABEFF#48 0x86DD#16) State.reset)).map (fun t => t.hwire) =
    some 0x008041FFF00D008041BABEFF86DD#112 := by decide
/-- R81, R143: FRAME16 at SRC_BASE. -/
theorem test_frame_row :
    (nextOf (exec (.eth2Frame 0x008041FFF00D#48 0x008041BABEFF#48 0x86DD#16 [0xaa#8, 0xbb#8]) { State.reset with srcBase := 0x1000 })).map
      (fun t => t.mem) = some (cells 0x1000 frame16) := by decide
/-- V-T5 through the rows. -/
theorem test_ipv6_row : (nextOf (exec .etypeIpv6 State.reset)).map (fun t => t.etClass) = some 0x10000#17 := by decide
theorem test_unknown_row : (nextOf (exec (.etypeUnknown 0x0806#16) State.reset)).map (fun t => (t.hEt, t.etClass)) =
    some (0x0806#16, 0x00806#17) := by decide

/-! ### The host operations -/

/-- V-H13a, V-H13b, V-H7, V-X9: the top of the address space. -/
theorem test_descriptor_top :
    wellFormedRange Config.reference 0xFFF2 14 = true ∧ wellFormedRange Config.reference 0xFFF3 14 = false ∧
    wellFormedRange Config.reference 0xFFFF 0 = true ∧ wellFormedRange Config.reference 0xFFFF 1 = true := by decide
/-- V-X1. -/
theorem test_reset_registers :
    (nextOf (step { fixF with script := [.reset] })).map
      (fun t => (List.range 14).map (fun n => (regOfNumber (n + 1)).bind t.readReg)) = some (List.replicate 14 (some 0)) := by decide
/-- V-X3, V-X4, V-X5, V-X6. -/
theorem test_host_refusals :
    refusalOf (step { State.reset with script := [.wr 0x01 0] }) = some .readOnlyWrite ∧
    refusalOf (step { State.reset with script := [.rd 0x00] }) = some .writeOnlyRead ∧
    refusalOf (step { State.reset with script := [.rd 0x0F] }) = some .badRegister ∧
    refusalOf (step { State.reset with script := [.wr 0x0A 0x10000] }) = some .valueWidth ∧
    refusalOf (step { State.reset with own := [0xaa#8], script := [.ownRead 1] }) = some .ownIndex := by decide
/-- V-X2. -/
theorem test_reserved_commands :
    [0x00, 0x0C, 0x0F, 0x10, 0x11, 0x81, 0xFF].map (fun c => refusalOf (step { State.reset with script := [.wr 0x00 c] })) =
      List.replicate 7 (some .reservedCommand) := by decide
/-- V-F1 as host operations: R92's `SRC` and `FDEC`, three steps. -/
theorem test_script_src_fdec :
    (match Sys2Proof.core.run 3 { fix with srcBase := 0, srcLen := 0, script := Script.src 0x1000 16 ++ Script.command .fdec } with
      | .next t => some t
      | .fault _ => none
      | .refused _ => none) = some fixF := by decide
/-- R142: RD RES_LEN. -/
theorem test_read_register : (nextOf (step { fixF with script := [.rd 0x0C] })).map (fun t => t.reply) = some (.value 16) := by decide
/-- R143's example. -/
theorem test_memory_write_read :
    (nextOf (step { State.reset with script := [.mw 0x1000 [0xaa#8, 0xbb#8]] })).map (fun t => t.mem.readN 0x1000 2) =
      some [0xaa#8, 0xbb#8] := by decide
theorem test_idle : nextOf (step fix) = some fix := by decide

/-! ### Witnesses: the statements' hypotheses can be met, for each clause at the edge of its range -/

/-- DecodeOfEncode. -/
theorem witness_well_formed : (Instr.eth2Frame 1#48 2#48 3#16 [4#8]).wellFormed = true ∧ (Instr.etypeUnknown 0#16).wellFormed = true := by decide
/-- EncodeOfDecode. -/
theorem witness_decodes : decode .wireFrame frame16 = .ok (.eth2Frame 0x008041FFF00D#48 0x008041BABEFF#48 0x86DD#16 [0xaa#8, 0xbb#8]) := by decide
/-- ReservedCommandRefused, below and above the eleven words. -/
theorem witness_reserved :
    (¬(0x01 ≤ (0x00#8).toNat ∧ (0x00#8).toNat ≤ 0x0B)) ∧ (¬(0x01 ≤ (0x0C#8).toNat ∧ (0x0C#8).toNat ≤ 0x0B)) ∧
    State.script { fix with script := [.wr 0x00 0x0C] } = .wr 0x00 (0x0C#8).toNat :: [] := by decide
/-- FetchedWordRuns, for each format. -/
theorem witness_table_word :
    decodeTableWord 8 0x0B = some .olen ∧ decodeTableWord 16 0 = some (.etypeUnknown 0#16) ∧
    decodeTableWord 112 0 = some (.eth2Header 0#48 0#48 0#16) ∧ decodeTableWord 120 0 = some (.eth2Frame 0#48 0#48 0#16 [0#8]) := by
  decide
/-- StepRunsCommand. -/
theorem witness_command_issue :
    State.script { fix with script := [.wr 0x00 0x05] } = .wr 0x00 (0x05#8).toNat :: [] ∧ decode .cmd8 [0x05#8] = .ok .fdec := by decide
/-- MnemonicRunsCommand. -/
theorem witness_mnemonic :
    Instr.fdec.format = .cmd8 ∧ State.script { fix with script := [.wr 0x00 0x05] } = Script.command .fdec ++ [] := by decide
/-- IdleEngineHoldsState. -/
theorem witness_idle : fix.script = [] := by decide
/-- MacCodecInverse. -/
theorem witness_six_bytes : (hdr14.take 6).length = 6 ∧ 5 < 6 := by decide
/-- HeaderRoundTrip. -/
theorem witness_fourteen_bytes : hdr14.length = 14 := by decide
/-- EtherTypeDecodeOfEncode, Ipv6CodeIsKnown, EtClassView, EtherTypeRowsRead: the parameters, a known and an unknown code. -/
theorem witness_parameters :
    Config.reference.Valid ∧ 0 < Config.reference.knownEt.length ∧ 0x86DD#16 ∈ Config.reference.knownEt.map KnownEt.code ∧
    0x86DC#16 ∉ Config.reference.knownEt.map KnownEt.code := by decide
theorem witness_et_class :
    fixF.params.Valid ∧ (fixF.params.knownEt.map KnownEt.code)[0]? = some fixF.hEt ∧
    fix.hEt ∉ fix.params.knownEt.map KnownEt.code := by decide
/-- StepKeepsInvariant: an FDEC step of a state with the invariant, its frame at the top of the address space. -/
theorem witness_invariant_step :
    State.Inv { fix with script := [.wr 0x00 0x05] } ∧
    ∃ t, step { fix with script := [.wr 0x00 0x05] } = .next t ∧ decide (t.payLen = 2) = true := ⟨by decide, next_of (by decide)⟩
/-- ResetOperation. -/
theorem witness_reset : State.script { fix with script := [.reset] } = .reset :: [] := by decide
/-- HdecResult: ill-formed; 13 bytes; 14 bytes. -/
theorem witness_hdec :
    State.srcOk { fix with srcBase := 0xFFF3, srcLen := 14 } = false ∧
    (State.srcOk { fix with srcLen := 13 } = true ∧ 13 < 14) ∧ State.srcOk { fix with srcLen := 14 } = true ∧ 14 ≤ 14 := by decide
/-- HencResult: ill-formed; capacity 13; capacity 14. -/
theorem witness_henc :
    State.dstOk { fix with dstBase := 0xFFF3, dstCap := 14 } = false ∧
    (State.dstOk { fix with dstCap := 13 } = true ∧ 13 < 14) ∧ State.dstOk { fix with dstCap := 14 } = true ∧ 14 ≤ 14 := by decide
/-- HdecHencCopiesHeader, with the same state between. -/
theorem witness_hdec_henc : ∃ t u, exec .hdec fix = .next t ∧ decide (t.status = 0#8) = true ∧
    exec .henc t = .next u ∧ decide (u.status = 0#8) = true := next_of_next (by decide)
/-- HeaderDecodeReadsFourteenBytes: another memory with the same 14 bytes. -/
theorem witness_same_fourteen : Memory.readN (cells 0x1000 hdr14) fix.srcBase 14 = fix.mem.readN fix.srcBase 14 := by decide
/-- FdecResult: ill-formed; 14 bytes; 15 bytes. -/
theorem witness_fdec :
    State.srcOk { fix with srcBase := 0xFFF2, srcLen := 15 } = false ∧
    (State.srcOk { fix with srcLen := 14 } = true ∧ 14 ≤ 14) ∧ State.srcOk { fix with srcLen := 15 } = true ∧ 14 < 15 := by decide
/-- AddressesNeverWrap, each clause with its range ending at the top of the address space (V-F9); the FDEC is also
FlenAfterFdec's and EmptyPayloadAsymmetry's. -/
theorem witness_fdec_succeeds :
    ∃ t, exec .fdec { fix with srcBase := 0xFFF0, srcLen := 16 } = .next t ∧ decide (t.status = 0#8 ∧ t.payBase = 0xFFFE) = true :=
  next_of (by decide)
theorem witness_hdec_at_top : ∃ t, exec .hdec { fix with srcBase := 0xFFF2, srcLen := 14 } = .next t ∧ decide (t.status = 0#8) = true :=
  next_of (by decide)
theorem witness_henc_at_top : ∃ t, exec .henc { fix with dstBase := 0xFFF2, dstCap := 14 } = .next t ∧ decide (t.status = 0#8) = true :=
  next_of (by decide)
theorem witness_odec_at_top : ∃ t, exec .odec { fix with srcBase := 0xFFF0, srcLen := 16 } = .next t ∧ decide (t.status = 0#8) = true :=
  next_of (by decide)
theorem witness_fenc_succeeds : ∃ t, exec .fenc { fixF with dstBase := 0xFFF0 } = .next t ∧
    decide (t.status = 0#8 ∧ 0 < fixF.payLen) = true := next_of (by decide)
theorem witness_oenc_succeeds : ∃ t, exec .oenc { fixO with dstBase := 0xFFF0 } = .next t ∧
    decide (t.status = 0#8 ∧ fixO.own ≠ []) = true := next_of (by decide)
theorem witness_toown_at_top : (∃ t, exec .toown { fixF with payBase := 0xFFFE } = .next t ∧ decide (t.status = 0#8) = true) ∧
    0 < fixF.payLen := ⟨next_of (by decide), by decide⟩
/-- FencResult, its five clauses: destination ill-formed; payload ill-formed; overlap by one byte; one byte too small; just
large enough. OverlapRefusedExactly. -/
theorem witness_fenc :
    State.dstOk { fixF with dstBase := 0xFFFF, dstCap := 2 } = false ∧
    (fixF.dstOk = true ∧ State.payOk { fixF with payBase := 0xFFFF } = false) ∧
    (State.dstOk { fixF with dstBase := 0x100F } = true ∧ fixF.payOk = true ∧ State.payMeetsDst { fixF with dstBase := 0x100F } = true) ∧
    (State.dstOk { fixF with dstCap := 15 } = true ∧ State.payMeetsDst { fixF with dstCap := 15 } = false ∧ 15 < 14 + fixF.payLen) ∧
    fixF.payMeetsDst = false ∧ 14 + fixF.payLen ≤ fixF.dstCap := by decide
/-- What may happen between a decode and an encode: a new destination, another source, HWIRE and STATUS, and the first
header byte of the source frame overwritten in M. -/
def between (dst cap : Nat) (t : State) : State :=
  { t with dstBase := dst, dstCap := cap, srcBase := 0, srcLen := 3, hwire := 1#112, status := 2#8, mem := t.mem.write 0x1000 0x5a#8 }
/-- BorrowedFrameRoundTrip, with much changed in between. -/
theorem witness_borrowed_round_trip : ∃ t u, exec .fdec fix = .next t ∧
    decide (t.status = 0#8 ∧ (between 0x2000 20 t).header = t.header ∧ (between 0x2000 20 t).payBase = t.payBase ∧
      (between 0x2000 20 t).payLen = t.payLen ∧
      (between 0x2000 20 t).mem.readN t.payBase t.payLen = fix.mem.readN t.payBase t.payLen) = true ∧
    exec .fenc (between 0x2000 20 t) = .next u ∧ decide (u.status = 0#8) = true :=
  next_of_next (f := fun t => exec .fenc (between 0x2000 20 t)) (by decide)
/-- EmptyPayloadAsymmetry: an empty payload, capacity 14. -/
theorem witness_empty_payload : State.payLen fix = 0 ∧ State.dstOk { fix with dstCap := 14 } = true ∧ 14 ≤ 14 := by decide
/-- PayloadIsViewHeaderIsCopy: V-F12's host write between FDEC and FENC or TOOWN. -/
theorem witness_view : ∃ t u, exec .fdec fix = .next t ∧ decide (t.status = 0#8) = true ∧
    hostStep (.mw 0x100E [0xcc#8, 0xdd#8]) t = .next u ∧
      ((nextOf (exec .fenc u)).any (fun v => v.status == 0#8) && (nextOf (exec .toown u)).isSome) = true :=
  next_of_next (f := fun t => hostStep (.mw 0x100E [0xcc#8, 0xdd#8]) t)
    (q := fun u => (nextOf (exec .fenc u)).any (fun v => v.status == 0#8) && (nextOf (exec .toown u)).isSome) (by decide)
/-- OdecResult: ill-formed; one byte above the capacity; 14 bytes; 15 bytes with capacity 1. -/
theorem witness_odec :
    State.srcOk { fix with srcBase := 0xFFF2, srcLen := 15 } = false ∧
    (fix.srcOk = true ∧ 14 < fix.srcLen ∧ 1 < fix.srcLen - 14) ∧ (State.srcOk { fix with srcLen := 14 } = true ∧ 14 ≤ 14) ∧
    State.srcOk { fix with srcLen := 15 } = true ∧ 14 < 15 ∧ 15 - 14 ≤ 1 := by decide
/-- OencResult: ill-formed; one byte too small; just large enough. -/
theorem witness_oenc :
    State.dstOk { fixO with dstBase := 0xFFF1 } = false ∧
    (State.dstOk { fixO with dstCap := 15 } = true ∧ 15 < 14 + fixO.own.length) ∧ fixO.dstOk = true ∧ 14 + fixO.own.length ≤ fixO.dstCap := by
  decide
/-- ToownResult: ill-formed; one byte above the capacity; at the capacity. -/
theorem witness_toown :
    State.payOk { fixF with payBase := 0xFFFF } = false ∧ (fixF.payOk = true ∧ 1 < fixF.payLen) ∧ fixF.payLen ≤ 2 := by decide
/-- OwnedBorrowedEquivalence, both clauses. -/
theorem witness_equivalence :
    (fix.srcOk = true ∧ 14 < fix.srcLen ∧ fix.srcLen - 14 ≤ fix.params.ownCap) ∧ State.srcOk { fix with srcLen := 14 } = true ∧ 14 ≤ 14 := by
  decide
/-- OwnedFrameIndependence: V-O11 for ODEC, and the same for TOOWN. -/
theorem witness_independence_odec : ∃ t u, exec .odec fix = .next t ∧ decide (t.status = 0#8) = true ∧
    hostStep (.mw 0x100E [0xcc#8, 0xdd#8]) t = .next u ∧ (nextOf (exec .oenc u)).any (fun v => v.status == 0#8) = true :=
  next_of_next (f := fun t => hostStep (.mw 0x100E [0xcc#8, 0xdd#8]) t)
    (q := fun u => (nextOf (exec .oenc u)).any fun v => v.status == 0#8) (by decide)
theorem witness_independence_toown : ∃ t u, exec .toown fixF = .next t ∧ decide (t.status = 0#8) = true ∧
    hostStep (.mw 0x100E [0xcc#8, 0xdd#8]) t = .next u ∧ (nextOf (exec .oenc u)).any (fun v => v.status == 0#8) = true :=
  next_of_next (f := fun t => hostStep (.mw 0x100E [0xcc#8, 0xdd#8]) t)
    (q := fun u => (nextOf (exec .oenc u)).any fun v => v.status == 0#8) (by decide)
/-- OwnedFrameRoundTrip, into the source range itself, with much changed in between. -/
theorem witness_owned_round_trip : ∃ t u, exec .odec fix = .next t ∧
    decide (t.status = 0#8 ∧ (between 0x1000 16 t).header = t.header ∧ (between 0x1000 16 t).own = t.own) = true ∧
    exec .oenc (between 0x1000 16 t) = .next u ∧ decide (u.status = 0#8) = true :=
  next_of_next (f := fun t => exec .oenc (between 0x1000 16 t)) (by decide)
/-- FrameDatumFillsSource: a range past the top, and one that ends at it. -/
theorem witness_frame_row :
    wellFormedRange Config.reference 0xFFF2 (14 + [0#8].length) = false ∧ wellFormedRange Config.reference 0xFFF1 (14 + [0#8].length) = true := by
  decide
/-- ConditionTable, WrittenByColumn, KnownSetChangesNoCommand: a command that runs. -/
theorem witness_command_runs : Instr.fdec.format = .cmd8 ∧ ∃ t, exec .fdec fix = .next t ∧ decide (t.status = 0#8) = true :=
  ⟨by decide, next_of (by decide)⟩
/-- ConditionChangesStatusOnly, ConditionRepeatsAndNeverSticks: a command that raises each condition. -/
theorem witness_conditions :
    (∃ t, exec .hdec { fix with srcLen := 13 } = .next t ∧ decide (t.status ≠ 0#8) = true) ∧
    (∃ t, exec .fdec { fix with srcLen := 14 } = .next t ∧ decide (t.status ≠ 0#8) = true) ∧
    ∃ t, exec .henc { fix with dstCap := 13 } = .next t ∧ decide (t.status ≠ 0#8) = true :=
  ⟨next_of (by decide), next_of (by decide), next_of (by decide)⟩
/-- IllFormedDescriptorRefused. -/
theorem witness_ill_formed : Instr.fenc.format = .cmd8 ∧ descriptorsOk .fenc { fixF with payBase := 0xFFFF } = false := by decide
/-- RefusalReasonsClosed: each reason of the list is reached. -/
theorem witness_every_reason :
    step { fix with srcBase := 0xFFFF, script := [.wr 0x00 0x03] } = .refused .badDescriptor ∧
    step { fix with script := [.mw 0xFFFF [0#8, 0#8]] } = .refused .badDescriptor ∧
    step { fix with script := [.mr 0xFFFF 2] } = .refused .badDescriptor ∧
    step { fixF with dstBase := 0x100F, script := [.wr 0x00 0x06] } = .refused .overlap ∧
    step { fix with params := { Config.reference with ownCap := 1 }, script := [.wr 0x00 0x08] } = .refused .ownCapacity ∧
    step { fixF with params := { Config.reference with ownCap := 1 }, script := [.wr 0x00 0x0A] } = .refused .ownCapacity ∧
    step { fix with params := { Config.reference with ownCap := 1 }, script := [.oload [1#8, 2#8]] } = .refused .ownCapacity ∧
    step { fix with script := [.wr 0x00 0x0C] } = .refused .reservedCommand ∧
    step { fix with script := [.wr 0x0D 0] } = .refused .readOnlyWrite ∧
    step { fix with script := [.rd 0x00] } = .refused .writeOnlyRead ∧
    step { fix with script := [.wr 0x0F 0] } = .refused .badRegister ∧
    step { fix with script := [.wr 0x03 0x10000] } = .refused .valueWidth ∧
    step { fixO with script := [.ownRead 2] } = .refused .ownIndex :=
  ⟨refused_of (by decide), refused_of (by decide), refused_of (by decide), refused_of (by decide), refused_of (by decide),
    refused_of (by decide), refused_of (by decide), refused_of (by decide), refused_of (by decide), refused_of (by decide),
    refused_of (by decide), refused_of (by decide), refused_of (by decide)⟩
/-- ContentIsNeverAnError: another OWN of the same length, a refused and a running command. -/
theorem witness_content :
    Instr.oenc.format = .cmd8 ∧ [1#8, 2#8].length = fixO.own.length ∧
    exec .oenc { fixO with dstBase := 0xFFF1 } = .refused .badDescriptor ∧ ∃ t, exec .oenc fixO = .next t ∧ decide (t.status = 0#8) = true :=
  ⟨by decide, by decide, refused_of (by decide), next_of (by decide)⟩
/-- WritesOnlyInsideDestination: HENC changes the byte at DST_BASE. -/
theorem witness_changed_byte :
    Instr.henc.format = .cmd8 ∧ ∃ t, exec .henc fixF = .next t ∧ decide (t.mem.read 0x2000 ≠ fixF.mem.read 0x2000) = true :=
  ⟨by decide, next_of (by decide)⟩
/-- RegisterWrite: an unassigned number; a read-only register with the widest value that fits and the first too wide
(ReadOnlyReasonBeforeWidth); a writable register with the first value too wide; the widest value that fits. -/
theorem witness_register_write :
    State.script { fix with script := [.wr 0x0F 0] } = .wr 0x0F 0 :: [] ∧ 0x0E < 0x0F ∧
    (State.script { fix with script := [.wr 0x01 0xFF] } = .wr Reg.status.number 0xFF :: [] ∧ Reg.status.access = .readOnly ∧
      0xFF < 2 ^ Reg.status.width fix.params) ∧
    (State.script { fix with script := [.wr 0x01 0x100] } = .wr Reg.status.number 0x100 :: [] ∧
      2 ^ Reg.status.width fix.params ≤ 0x100) ∧
    (0x0A = Reg.hEt.number ∧ Reg.hEt.access ≠ .readOnly ∧ 2 ^ Reg.hEt.width fix.params ≤ 0x10000) ∧
    Reg.hEt.access = .readWrite ∧ 0xFFFF < 2 ^ Reg.hEt.width fix.params := by decide
/-- RegisterRead: CMD, an unassigned number, the two views, a stored register. -/
theorem witness_register_read :
    State.script { fix with script := [.rd 0x0E] } = .rd 0x0E :: [] ∧ 0x0E = Reg.hwire.number ∧ Reg.hwire ≠ .cmd ∧ 0x0E < 0x0F ∧
    State.script { fix with script := [.rd 0x00] } = .rd 0x00 :: [] ∧ State.script { fix with script := [.rd 0x0B] } = .rd 0x0B :: [] ∧
    State.script { fix with script := [.rd 0x0D] } = .rd 0x0D :: [] := by decide
/-- MemoryWriteAndRead: past the top of the address space, and up to it. -/
theorem witness_memory_access :
    State.script { fix with script := [.mw 0xFFFF [1#8]] } = .mw 0xFFFF [1#8] :: [] ∧ wellFormedRange fix.params 0xFFFF 1 = true ∧
    wellFormedRange fix.params 0xFFFF 2 = false ∧ State.script { fix with script := [.mr 0xFFFF 2] } = .mr 0xFFFF 2 :: [] := by decide
/-- OwnedStoreAccess: above and at the capacity; at and below the length. -/
theorem witness_owned_access :
    State.script { fix with script := [.oload [1#8]] } = .oload [1#8] :: [] ∧ ([1#8] : List Byte).length ≤ fix.params.ownCap ∧
    State.ownLen fixO ≤ 2 ∧ fixO.own[1]? = some 0xbb#8 ∧ State.script { fixO with script := [.ownRead 1] } = .ownRead 1 :: [] ∧
    Params.ownCap { Config.reference with ownCap := 0 } < ([1#8] : List Byte).length := by decide

end Sys2Proof.Tests
end

section
/-! SUPPORT. The step with nothing to perform, the invariant at launch, and the two statements they settle. -/

namespace Sys2Proof.Machine

/-- The step with no operation waiting answers the state it was given (R9, R163; log entry 1). -/
theorem step_nil {s : State} (h : s.script = []) : step s = .next s := by
  simp only [step, runNext, h]

/-- The parameters of the test vectors meet the constraints of R11 and R104. -/
theorem reference_valid : Config.reference.Valid := by decide

/-- A launch leaves every register 0, which fits any width (R41). -/
theorem State.launch_fits (p : Params) (m : Memory) (ops : List HostOp) : (State.launch p m ops).Fits := by
  have hpow (n : Nat) : 0 < 2 ^ n := Nat.two_pow_pos n
  exact ⟨hpow _, hpow _, hpow _, hpow _, hpow _, hpow _, hpow _⟩

/-- The invariant holds at every launch, over any admissible parameters and any canonical memory inside `MEM`: no
register and nothing of OWN can break it. -/
theorem State.launch_inv {p : Params} {m : Memory} (hp : p.Valid) (hm : m.wf)
    (hin : ∀ c ∈ m, inMem p c.1 = true) (ops : List HostOp) : (State.launch p m ops).Inv :=
  have hstatus : (0#8).toNat < 4 := by decide
  ⟨hp, State.launch_fits p m ops, hstatus, Nat.zero_le _, hm, hin⟩

end Sys2Proof.Machine

open Sys2Proof Sys2Proof.Machine

/-- Settles O8: the script is the only thing the step looks at first, and an empty one is its idle case. -/
theorem idleEngineHoldsState : Obligations.IdleEngineHoldsState :=
  fun _ => step_nil

/-- Settles O17: reset is the launch over the test vectors' parameters with nothing listed in M. -/
theorem resetHasInvariant : Obligations.ResetHasInvariant :=
  have hwf : Memory.wf [] := List.Pairwise.nil
  have hin : ∀ c ∈ ([] : Memory), inMem Config.reference c.1 = true := fun _ hc => nomatch hc
  State.launch_inv reference_valid hwf hin []

end

section
/-! SUPPORT. What a command can answer, said once per command: its refusals passed, then the condition raised or the work
done (R159). -/

namespace Sys2Proof.Machine

variable {s t : State}

/-! ### The two kinds of guard, and the end of a command -/

/-- Past a refusal the guard does not hold (R16). -/
theorem next_of_refuse_guard {p : Prop} [Decidable p] {r : Refusal} {x : Result}
    (h : (if p then refuse r else x) = .next t) : ¬p ∧ x = .next t := by
  split at h
  · simp at h
  · exact ⟨‹_›, h⟩

/-- Past a descriptor's check the descriptor is well-formed (R60). -/
theorem next_of_descriptor_check {ok : Bool} {x : Result}
    (h : (if !ok then refuse .badDescriptor else x) = .next t) : ok = true ∧ x = .next t := by
  obtain ⟨hok, hx⟩ := next_of_refuse_guard h
  exact ⟨by simpa using hok, hx⟩

/-- At a condition's test a command raises it or goes on (R15). -/
theorem next_of_raise_guard {p : Prop} [Decidable p] {c : Condition} {x : Result}
    (h : (if p then raise c s else x) = .next t) : (p ∧ t = s.setStatus c.code) ∨ (¬p ∧ x = .next t) := by
  split at h
  · exact .inl ⟨‹_›, by simpa using h.symm⟩
  · exact .inr ⟨‹_›, h⟩

theorem next_of_complete {n : Nat} (h : complete n s = .next t) : t = (s.setResLen n).setStatus 0#8 := by
  simpa using h.symm

/-! ### The header codec -/

/-- What HDEC can answer (R115). -/
theorem execHdec_next (h : execHdec s = .next t) :
    s.srcOk = true ∧ ((s.srcLen < 14 ∧ t = s.setStatus Condition.tooShort.code) ∨
      (14 ≤ s.srcLen ∧ t = ((s.setHeader (s.headerAt s.srcBase)).setResLen 14).setStatus 0#8)) := by
  obtain ⟨hsrc, h⟩ := next_of_descriptor_check h
  obtain ⟨hlen, rfl⟩ | ⟨hlen, h⟩ := next_of_raise_guard h
  · exact ⟨hsrc, .inl ⟨hlen, rfl⟩⟩
  · exact ⟨hsrc, .inr ⟨Nat.le_of_not_lt hlen, next_of_complete h⟩⟩

/-- What HENC can answer (R116). -/
theorem execHenc_next (h : execHenc s = .next t) :
    s.dstOk = true ∧ ((s.dstCap < 14 ∧ t = s.setStatus Condition.bufferTooShort.code) ∨
      (14 ≤ s.dstCap ∧ t = ((s.setMem (s.mem.writeN s.dstBase (hdrPack s.header))).setResLen 14).setStatus 0#8)) := by
  obtain ⟨hdst, h⟩ := next_of_descriptor_check h
  obtain ⟨hcap, rfl⟩ | ⟨hcap, h⟩ := next_of_raise_guard h
  · exact ⟨hdst, .inl ⟨hcap, rfl⟩⟩
  · exact ⟨hdst, .inr ⟨Nat.le_of_not_lt hcap, next_of_complete h⟩⟩

/-! ### The borrowed frame codec -/

/-- What FDEC can answer (R121). -/
theorem execFdec_next (h : execFdec s = .next t) :
    s.srcOk = true ∧ ((s.srcLen ≤ 14 ∧ t = s.setStatus Condition.noBody.code) ∨
      (14 < s.srcLen ∧ t = ((((s.setHeader (s.headerAt s.srcBase)).setPayBase (s.srcBase + 14)).setPayLen
        (s.srcLen - 14)).setResLen s.srcLen).setStatus 0#8)) := by
  obtain ⟨hsrc, h⟩ := next_of_descriptor_check h
  obtain ⟨hlen, rfl⟩ | ⟨hlen, h⟩ := next_of_raise_guard h
  · exact ⟨hsrc, .inl ⟨hlen, rfl⟩⟩
  · exact ⟨hsrc, .inr ⟨Nat.lt_of_not_le hlen, next_of_complete h⟩⟩

/-- What FENC can answer (R122). -/
theorem execFenc_next (h : execFenc s = .next t) :
    s.dstOk = true ∧ s.payOk = true ∧ s.payMeetsDst = false ∧
      ((s.dstCap < 14 + s.payLen ∧ t = s.setStatus Condition.bufferTooShort.code) ∨
        (14 + s.payLen ≤ s.dstCap ∧
          t = ((s.storeFrame s.payload).setResLen (14 + s.payLen)).setStatus 0#8)) := by
  obtain ⟨hdst, h⟩ := next_of_descriptor_check h
  obtain ⟨hpay, h⟩ := next_of_descriptor_check h
  obtain ⟨hmeet, h⟩ := next_of_refuse_guard h
  have hmeet := Bool.eq_false_of_not_eq_true hmeet
  obtain ⟨hcap, rfl⟩ | ⟨hcap, h⟩ := next_of_raise_guard h
  · exact ⟨hdst, hpay, hmeet, .inl ⟨hcap, rfl⟩⟩
  · exact ⟨hdst, hpay, hmeet, .inr ⟨Nat.le_of_not_lt hcap, next_of_complete h⟩⟩

/-! ### The owned frame codec -/

/-- What ODEC can answer (R131). -/
theorem execOdec_next (h : execOdec s = .next t) :
    s.srcOk = true ∧ ((s.srcLen ≤ 14 ∧ t = s.setStatus Condition.noBody.code) ∨
      (14 < s.srcLen ∧ s.srcLen - 14 ≤ s.params.ownCap ∧
        t = (((s.setHeader (s.headerAt s.srcBase)).setOwn
          (s.mem.readN (s.srcBase + 14) (s.srcLen - 14))).setResLen s.srcLen).setStatus 0#8)) := by
  obtain ⟨hsrc, h⟩ := next_of_descriptor_check h
  obtain ⟨hown, h⟩ := next_of_refuse_guard h
  obtain ⟨hlen, rfl⟩ | ⟨hlen, h⟩ := next_of_raise_guard h
  · exact ⟨hsrc, .inl ⟨hlen, rfl⟩⟩
  · have hlen := Nat.lt_of_not_le hlen
    exact ⟨hsrc, .inr ⟨hlen, Nat.le_of_not_lt fun hcap => hown ⟨hlen, hcap⟩, next_of_complete h⟩⟩

/-- What OENC can answer (R132). -/
theorem execOenc_next (h : execOenc s = .next t) :
    s.dstOk = true ∧ ((s.dstCap < 14 + s.own.length ∧ t = s.setStatus Condition.bufferTooShort.code) ∨
      (14 + s.own.length ≤ s.dstCap ∧
        t = ((s.storeFrame s.own).setResLen (14 + s.own.length)).setStatus 0#8)) := by
  obtain ⟨hdst, h⟩ := next_of_descriptor_check h
  obtain ⟨hcap, rfl⟩ | ⟨hcap, h⟩ := next_of_raise_guard h
  · exact ⟨hdst, .inl ⟨hcap, rfl⟩⟩
  · exact ⟨hdst, .inr ⟨Nat.le_of_not_lt hcap, next_of_complete h⟩⟩

/-- What TOOWN can answer (R133). -/
theorem execToown_next (h : execToown s = .next t) :
    s.payOk = true ∧ s.payLen ≤ s.params.ownCap ∧ t = (s.setOwn s.payload).setStatus 0#8 := by
  obtain ⟨hpay, h⟩ := next_of_descriptor_check h
  obtain ⟨hown, h⟩ := next_of_refuse_guard h
  exact ⟨hpay, Nat.le_of_not_lt hown, by simpa using h.symm⟩

end Sys2Proof.Machine
end

section
/-! SUPPORT. Every command, every host operation and every step keeps the invariant. -/

namespace Sys2Proof.Machine

variable {s t : State}

/-! ### What a well-formed descriptor says, and what the invariant says of lengths -/

/-- Every address of a well-formed range is in `MEM` (R60). -/
theorem inMem_of_wellFormedRange {p : Params} {base len k : Nat} (h : wellFormedRange p base len = true)
    (hk : k < len) : inMem p (base + k) = true := by
  simp only [wellFormedRange, Bool.or_eq_true, Bool.and_eq_true, decide_eq_true_eq, List.all_eq_true,
    List.mem_range] at h
  obtain h0 | ⟨_, hall⟩ := h
  · omega
  · exact hall k hk

/-- A well-formed range that is not empty ends within the address space (R60). -/
theorem add_le_of_wellFormedRange {p : Params} {base len : Nat} (h : wellFormedRange p base len = true)
    (hlen : 0 < len) : base + len ≤ 2 ^ p.aw := by
  simp only [wellFormedRange, Bool.or_eq_true, Bool.and_eq_true, decide_eq_true_eq] at h
  obtain h0 | ⟨hle, _⟩ := h
  · omega
  · exact hle

theorem State.Inv.valid (h : s.Inv) : s.params.Valid := h.1

theorem State.Inv.srcLen_lt (h : s.Inv) : s.srcLen < 2 ^ s.params.lw := by
  obtain ⟨_, ⟨_, hsrc, _⟩, _⟩ := h
  exact hsrc

theorem State.Inv.payLen_lt (h : s.Inv) : s.payLen < 2 ^ s.params.lw := by
  obtain ⟨_, ⟨_, _, _, _, _, hpay, _⟩, _⟩ := h
  exact hpay

/-- OWN_CAP fits a length register (R11), so the length of OWN does. -/
theorem State.Inv.own_length_lt (h : s.Inv) : s.own.length < 2 ^ s.params.lw := by
  obtain ⟨⟨_, _, _, hcap, _⟩, _, _, hown, _⟩ := h
  have := Nat.two_pow_pos s.params.lw
  omega

/-- A length that fits a length register fits RES_LEN, which is one bit wider (R21). -/
theorem State.Inv.srcLen_lt_resLen (h : s.Inv) : s.srcLen < 2 ^ (s.params.lw + 1) :=
  Nat.lt_trans h.srcLen_lt (Nat.pow_lt_pow_right (by decide) (Nat.lt_succ_self _))

/-- The length of a header fits RES_LEN (R11). -/
theorem State.Inv.fourteen_lt_resLen (h : s.Inv) : 14 < 2 ^ (s.params.lw + 1) :=
  fourteen_add_lt h.valid (Nat.two_pow_pos _)

/-! ### Updates -/

theorem State.Inv.setSrcBase (h : s.Inv) {n : Nat} (hn : n < 2 ^ s.params.aw) : (s.setSrcBase n).Inv := by
  obtain ⟨hp, ⟨_, hrest⟩, hs⟩ := h
  exact ⟨hp, ⟨hn, hrest⟩, hs⟩

theorem State.Inv.setSrcLen (h : s.Inv) {n : Nat} (hn : n < 2 ^ s.params.lw) : (s.setSrcLen n).Inv := by
  obtain ⟨hp, ⟨f1, _, hrest⟩, hs⟩ := h
  exact ⟨hp, ⟨f1, hn, hrest⟩, hs⟩

theorem State.Inv.setDstBase (h : s.Inv) {n : Nat} (hn : n < 2 ^ s.params.aw) : (s.setDstBase n).Inv := by
  obtain ⟨hp, ⟨f1, f2, _, hrest⟩, hs⟩ := h
  exact ⟨hp, ⟨f1, f2, hn, hrest⟩, hs⟩

theorem State.Inv.setDstCap (h : s.Inv) {n : Nat} (hn : n < 2 ^ s.params.lw) : (s.setDstCap n).Inv := by
  obtain ⟨hp, ⟨f1, f2, f3, _, hrest⟩, hs⟩ := h
  exact ⟨hp, ⟨f1, f2, f3, hn, hrest⟩, hs⟩

/-- A register write of a value that fits the register keeps the invariant (R141). -/
theorem State.Inv.writeReg (h : s.Inv) {r : Reg} {v : Nat} (hv : v < 2 ^ r.width s.params) :
    (s.writeReg r v).Inv := by
  cases r with
  | srcBase => exact h.setSrcBase hv
  | srcLen => exact h.setSrcLen hv
  | dstBase => exact h.setDstBase hv
  | dstCap => exact h.setDstCap hv
  | payBase => exact h.setPayBase hv
  | payLen => exact h.setPayLen hv
  | hDst | hSrc | hEt | hwire => exact h
  | cmd | status | etClass | resLen | ownLen => exact h

/-- A write into a well-formed range keeps the invariant. -/
theorem State.Inv.writeN_of_wellFormedRange (h : s.Inv) {addr len : Nat} {b : List Byte}
    (hr : wellFormedRange s.params addr len = true) (hb : b.length ≤ len) :
    (s.setMem (s.mem.writeN addr b)).Inv :=
  h.writeN fun _ hk => inMem_of_wellFormedRange hr (Nat.lt_of_lt_of_le hk hb)

/-- Storing a frame that fits a well-formed destination keeps the invariant (R122, R132). -/
theorem State.Inv.storeFrame (h : s.Inv) (hdst : s.dstOk = true) {b : List Byte} (hb : 14 + b.length ≤ s.dstCap) :
    (s.storeFrame b).Inv := by
  rw [State.storeFrame_eq]
  exact h.writeN_of_wellFormedRange hdst (by simpa using hb)

/-- Reset keeps the invariant: the launch over the parameters and M as they are (R41). -/
theorem State.Inv.resetEngine (h : s.Inv) : s.resetEngine.Inv := by
  obtain ⟨hp, _, _, _, hm, hin⟩ := h
  exact (State.launch_inv hp hm hin s.script).setReply s.reply

/-! ### Commands -/

theorem execHdec_keeps_inv (h : s.Inv) (hx : execHdec s = .next t) : t.Inv := by
  obtain ⟨_, ⟨_, rfl⟩ | ⟨_, rfl⟩⟩ := execHdec_next hx
  · exact h.raise _
  · exact (h.setHeader _).complete h.fourteen_lt_resLen

theorem execHenc_keeps_inv (h : s.Inv) (hx : execHenc s = .next t) : t.Inv := by
  obtain ⟨hdst, ⟨_, rfl⟩ | ⟨hcap, rfl⟩⟩ := execHenc_next hx
  · exact h.raise _
  · have hmem := h.writeN_of_wellFormedRange hdst (b := hdrPack s.header) (by simpa using hcap)
    exact hmem.complete h.fourteen_lt_resLen

/-- The payload descriptor FDEC leaves fits its registers: it lies in the source range (R62). -/
theorem execFdec_keeps_inv (h : s.Inv) (hx : execFdec s = .next t) : t.Inv := by
  obtain ⟨hsrc, ⟨_, rfl⟩ | ⟨hlen, rfl⟩⟩ := execFdec_next hx
  · exact h.raise _
  · have hend : s.srcBase + s.srcLen ≤ 2 ^ s.params.aw := add_le_of_wellFormedRange hsrc (by omega)
    have hbase : s.srcBase + 14 < 2 ^ s.params.aw := by omega
    have hpay : s.srcLen - 14 < 2 ^ s.params.lw := Nat.lt_of_le_of_lt (Nat.sub_le _ _) h.srcLen_lt
    exact (((h.setHeader _).setPayBase hbase).setPayLen hpay).complete h.srcLen_lt_resLen

theorem execFenc_keeps_inv (h : s.Inv) (hx : execFenc s = .next t) : t.Inv := by
  obtain ⟨hdst, _, _, ⟨_, rfl⟩ | ⟨hcap, rfl⟩⟩ := execFenc_next hx
  · exact h.raise _
  · have hframe := h.storeFrame hdst (b := s.payload) (by simpa using hcap)
    exact hframe.complete (fourteen_add_lt h.valid h.payLen_lt)

theorem execOdec_keeps_inv (h : s.Inv) (hx : execOdec s = .next t) : t.Inv := by
  obtain ⟨_, ⟨_, rfl⟩ | ⟨_, hcap, rfl⟩⟩ := execOdec_next hx
  · exact h.raise _
  · have hown := (h.setHeader (s.headerAt s.srcBase)).setOwn
      (b := s.mem.readN (s.srcBase + 14) (s.srcLen - 14)) (by simpa using hcap)
    exact hown.complete h.srcLen_lt_resLen

theorem execOenc_keeps_inv (h : s.Inv) (hx : execOenc s = .next t) : t.Inv := by
  obtain ⟨hdst, ⟨_, rfl⟩ | ⟨hcap, rfl⟩⟩ := execOenc_next hx
  · exact h.raise _
  · exact (h.storeFrame hdst hcap).complete (fourteen_add_lt h.valid h.own_length_lt)

theorem execToown_keeps_inv (h : s.Inv) (hx : execToown s = .next t) : t.Inv := by
  obtain ⟨_, hcap, rfl⟩ := execToown_next hx
  exact (h.setOwn (by simpa using hcap)).setStatus (by decide)

theorem hostMw_keeps_inv {addr : Nat} {b : List Byte} (h : s.Inv) (hx : hostMw addr b s = .next t) : t.Inv := by
  obtain ⟨hr, rfl⟩ := hostMw_next hx
  exact h.writeN_of_wellFormedRange hr (Nat.le_refl _)

/-- Every instruction keeps the invariant, the wire-format rows included. -/
theorem exec_keeps_inv {i : Instr} (h : s.Inv) (hx : exec i s = .next t) : t.Inv := by
  cases i with
  | hdec14 =>
    obtain rfl := next_of_complete hx
    exact (h.setHeader _).complete h.fourteen_lt_resLen
  | henc14 =>
    obtain rfl := next_of_complete hx
    exact (h.setHwire _).complete h.fourteen_lt_resLen
  | hdec => exact execHdec_keeps_inv h hx
  | henc => exact execHenc_keeps_inv h hx
  | fdec => exact execFdec_keeps_inv h hx
  | fenc => exact execFenc_keeps_inv h hx
  | flen =>
    obtain rfl := next_of_complete hx
    exact h.complete (fourteen_add_lt h.valid h.payLen_lt)
  | odec => exact execOdec_keeps_inv h hx
  | oenc => exact execOenc_keeps_inv h hx
  | toown => exact execToown_keeps_inv h hx
  | olen =>
    obtain rfl := next_of_complete hx
    exact h.complete (fourteen_add_lt h.valid h.own_length_lt)
  | eth2Header | etypeIpv6 | etypeUnknown =>
    cases hx
    exact h
  | eth2Frame => exact hostMw_keeps_inv h hx

/-! ### Host operations and the step -/

theorem hostWr_keeps_inv {n v : Nat} (h : s.Inv) (hx : hostWr n v s = .next t) : t.Inv := by
  obtain ⟨r, _, _, hv, ⟨_, hcmd⟩ | ⟨_, rfl⟩⟩ := hostWr_next hx
  · obtain ⟨i, _, hexec⟩ := issueCommand_next hcmd
    exact exec_keeps_inv h hexec
  · exact h.writeReg hv

theorem hostStep_keeps_inv {op : HostOp} (h : s.Inv) (hx : hostStep op s = .next t) : t.Inv := by
  cases op with
  | wr => exact hostWr_keeps_inv h hx
  | rd =>
    obtain ⟨_, _, _, _, rfl⟩ := hostRd_next hx
    exact h.setReply _
  | mw => exact hostMw_keeps_inv h hx
  | mr =>
    obtain ⟨_, rfl⟩ := hostMr_next hx
    exact h.setReply _
  | oload =>
    obtain ⟨hcap, rfl⟩ := hostOload_next hx
    exact h.setOwn hcap
  | ownRead =>
    obtain ⟨_, _, rfl⟩ := hostOwnRead_next hx
    exact h.setReply _
  | reset =>
    cases hx
    exact h.resetEngine

theorem step_keeps_inv (h : s.Inv) (hx : step s = .next t) : t.Inv := by
  obtain ⟨_, rfl⟩ | ⟨op, rest, _, hop⟩ := step_next hx
  · exact h
  · exact hostStep_keeps_inv (h.setScript rest) hop

end Sys2Proof.Machine

/-- Settles O18: a step is idle or one host operation, and each operation keeps the invariant. -/
theorem stepKeepsInvariant : Obligations.StepKeepsInvariant :=
  fun _ _ => Sys2Proof.Machine.step_keeps_inv

end

section
/-! SUPPORT. ET_CLASS: what the table of known codes makes of a code, and how the view packs it (R28, R103). -/

namespace Sys2Proof.Machine

variable {p : Params} {s : State}

/-! ### The known codes -/

/-- The code of row `i` decodes to identifier `i`: no earlier row has it, since the codes are distinct (R103, R104). -/
theorem etDecode_of_row (hp : p.Valid) {i : Nat} {c : EtCode}
    (h : (p.knownEt.map KnownEt.code)[i]? = some c) : etDecode p c = .known i := by
  obtain ⟨_, _, _, _, hnodup, _⟩ := hp
  obtain ⟨hi, hc⟩ := List.getElem?_eq_some_iff.1 h
  have hfind : (p.knownEt.map KnownEt.code).findIdx? (fun k => k == c) = some i := by
    refine List.findIdx?_eq_some_iff_getElem.2 ⟨hi, by simp [hc], fun j hj hjc => ?_⟩
    have hij : (p.knownEt.map KnownEt.code)[j] = (p.knownEt.map KnownEt.code)[i] := by
      rw [hc]; exact eq_of_beq hjc
    exact Nat.ne_of_lt hj ((hnodup.getElem_inj_iff).1 hij)
  simp only [etDecode, hfind]

/-- A code in no row decodes to itself, raw (R103). -/
theorem etDecode_of_not_mem {c : EtCode} (h : c ∉ p.knownEt.map KnownEt.code) : etDecode p c = .unknown c := by
  have hfind : (p.knownEt.map KnownEt.code).findIdx? (fun k => k == c) = none :=
    List.findIdx?_eq_none_iff.2 fun k hk => beq_eq_false_iff_ne.2 fun hkc => h (hkc ▸ hk)
  simp only [etDecode, hfind]

/-- Distinct codes of 16 bits make at most 2 to the 16 rows, so an identifier index fits ID (R28, R104). -/
theorem knownEt_length_le (hp : p.Valid) : p.knownEt.length ≤ 2 ^ 16 := by
  obtain ⟨_, _, _, _, hnodup, _⟩ := hp
  have hfin : ((p.knownEt.map KnownEt.code).map BitVec.toFin).Nodup :=
    hnodup.map fun a b hab => BitVec.eq_of_toFin_eq hab
  simpa using hfin.length_le_card

/-- Code 0x86DD has a row, and the row's identifier is named IPv6 (R104). -/
theorem exists_ipv6_row (hp : p.Valid) :
    ∃ i, (p.knownEt.map KnownEt.code)[i]? = some 0x86DD#16 ∧ etName p (.known i) = some .ipv6 := by
  obtain ⟨_, _, _, _, _, hmem⟩ := hp
  obtain ⟨i, hi⟩ := List.mem_iff_getElem?.1 hmem
  exact ⟨i, by simp [hi], by simp [etName, hi]⟩

/-! ### The packing of ET_CLASS -/

theorem etPack_known_bit (i : Nat) : (etPack (.known i)).getLsbD 16 = true := by
  rw [etPack, BitVec.getLsbD_append]
  simp

theorem etPack_unknown_bit (raw : EtCode) : (etPack (.unknown raw)).getLsbD 16 = false := by
  rw [etPack, BitVec.getLsbD_append]
  simp

theorem etPack_known_id (i : Nat) : (etPack (.known i)).extractLsb' 0 16 = BitVec.ofNat 16 i :=
  BitVec.extractLsb'_append_eq_right

theorem etPack_unknown_id (raw : EtCode) : (etPack (.unknown raw)).extractLsb' 0 16 = raw :=
  BitVec.extractLsb'_append_eq_right

/-- The view of a known code: bit 16 set and the row's index below it (R28). -/
theorem State.etClass_of_row (hp : s.params.Valid) {i : Nat}
    (h : (s.params.knownEt.map KnownEt.code)[i]? = some s.hEt) : s.etClass = etPack (.known i) := by
  rw [State.etClass, etDecode_of_row hp h]

/-- The view of a code in no row: bit 16 clear and the code below it (R28). -/
theorem State.etClass_of_not_mem (h : s.hEt ∉ s.params.knownEt.map KnownEt.code) :
    s.etClass = etPack (.unknown s.hEt) := by
  rw [State.etClass, etDecode_of_not_mem h]

/-- After reset the view is that of code 0x0000 (R41). -/
theorem State.resetEngine_etClass (s : State) : s.resetEngine.etClass = etPack (etDecode s.params 0x0000#16) := rfl

/-! ### The EtherType rows -/

theorem exec_etypeIpv6 (s : State) : exec .etypeIpv6 s = .next (s.setHEt 0x86DD#16) := rfl

theorem exec_etypeUnknown (raw : EtCode) (s : State) : exec (.etypeUnknown raw) s = .next (s.setHEt raw) := by
  simp [exec, execEtypeUnknown, State.writeReg]

end Sys2Proof.Machine

open Sys2Proof Sys2Proof.Machine

/-- Settles O15: the code's row is found, or none is, and the packing is read field by field. -/
theorem etClassView : Obligations.EtClassView := by
  intro s hp
  refine ⟨fun i hi => ?_, fun hno => ?_, s.resetEngine_etClass⟩
  · have hlt : i < 2 ^ 16 := by
      have hlen := knownEt_length_le hp
      obtain ⟨hi', _⟩ := List.getElem?_eq_some_iff.1 hi
      rw [List.length_map] at hi'
      omega
    rw [State.etClass_of_row hp hi, etPack_known_id, BitVec.toNat_ofNat, Nat.mod_eq_of_lt hlt]
    exact ⟨etPack_known_bit i, rfl⟩
  · rw [State.etClass_of_not_mem hno]
    exact ⟨etPack_unknown_bit _, etPack_unknown_id _⟩

/-- Settles O45: each row loads its code into H_ET, and ET_CLASS is the view of that code. -/
theorem etherTypeRowsRead : Obligations.EtherTypeRowsRead := by
  intro s hp
  refine ⟨?_, fun raw hraw => ⟨_, exec_etypeUnknown raw s, State.etClass_of_not_mem (s := s.setHEt raw) hraw⟩⟩
  obtain ⟨i, hrow, hname⟩ := exists_ipv6_row hp
  exact ⟨_, i, exec_etypeIpv6 s, hname, State.etClass_of_row (s := s.setHEt 0x86DD#16) hp hrow⟩

end

section
/-! SUPPORT. What each command may change, taken from what it can answer. -/

open Sys2Proof Sys2Proof.Machine

/-- Settles O53: every command answers the old state under the updates of its own row, and no update reaches another
row's field. -/
theorem writtenByColumn : Obligations.WrittenByColumn := by
  intro i s t hformat hx
  cases i with
  | hdec14 | henc14 | flen | olen =>
    obtain rfl := next_of_complete hx
    simp
  | hdec => obtain ⟨_, ⟨_, rfl⟩ | ⟨_, rfl⟩⟩ := execHdec_next hx <;> simp
  | henc => obtain ⟨_, ⟨_, rfl⟩ | ⟨_, rfl⟩⟩ := execHenc_next hx <;> simp
  | fdec => obtain ⟨_, ⟨_, rfl⟩ | ⟨_, rfl⟩⟩ := execFdec_next hx <;> simp
  | fenc => obtain ⟨_, _, _, ⟨_, rfl⟩ | ⟨_, rfl⟩⟩ := execFenc_next hx <;> simp [State.storeFrame_eq]
  | odec => obtain ⟨_, ⟨_, rfl⟩ | ⟨_, _, rfl⟩⟩ := execOdec_next hx <;> simp
  | oenc => obtain ⟨_, ⟨_, rfl⟩ | ⟨_, rfl⟩⟩ := execOenc_next hx <;> simp [State.storeFrame_eq]
  | toown =>
    obtain ⟨_, _, rfl⟩ := execToown_next hx
    simp
  | eth2Header | eth2Frame | etypeIpv6 | etypeUnknown => cases hformat

end

section
/-! SUPPORT. RESET, and the commands at the launch state it leaves. -/

namespace Sys2Proof.Machine

/-- At launch every register that stores a value holds 0 (R41). -/
theorem State.launch_readReg (p : Params) (m : Memory) (ops : List HostOp) {r : Reg} (hcmd : r ≠ .cmd)
    (hclass : r ≠ .etClass) : (State.launch p m ops).readReg r = some 0 := by
  cases r with
  | cmd => exact absurd rfl hcmd
  | etClass => exact absurd rfl hclass
  | _ => rfl

/-- A descriptor of length 0 is well-formed, wherever its base is (R60). -/
@[simp] theorem wellFormedRange_zero (p : Params) (base : Nat) : wellFormedRange p base 0 = true := by
  simp [wellFormedRange]

@[simp] theorem State.launch_srcOk (p : Params) (m : Memory) (ops : List HostOp) :
    (State.launch p m ops).srcOk = true := wellFormedRange_zero _ _

@[simp] theorem State.launch_dstOk (p : Params) (m : Memory) (ops : List HostOp) :
    (State.launch p m ops).dstOk = true := wellFormedRange_zero _ _

/-- FDEC of a well-formed source without a payload byte raises NoBody (R121). -/
theorem execFdec_noBody {s : State} (hsrc : s.srcOk = true) (hlen : s.srcLen ≤ 14) :
    execFdec s = .next (s.setStatus Condition.noBody.code) := by
  simp [execFdec, hsrc, hlen]

/-- HENC into a well-formed destination below 14 bytes raises BufferTooShort (R116). -/
theorem execHenc_bufferTooShort {s : State} (hdst : s.dstOk = true) (hcap : s.dstCap < 14) :
    execHenc s = .next (s.setStatus Condition.bufferTooShort.code) := by
  simp [execHenc, hdst, hcap]

/-- RESET answers the engine after reset, the operation taken off the script (R147). -/
theorem step_reset {s : State} {rest : List HostOp} (h : s.script = .reset :: rest) :
    step s = .next (s.setScript rest).resetEngine := step_cons h

end Sys2Proof.Machine

open Sys2Proof Sys2Proof.Machine

/-- Settles O19: the state RESET answers is a launch over M, the parameters and the rest of the script. -/
theorem resetOperation : Obligations.ResetOperation := by
  intro s rest hscript
  have hregs : ∀ r : Reg, r ≠ .cmd → r ≠ .etClass → (s.setScript rest).resetEngine.readReg r = some 0 :=
    fun _ hcmd hclass => State.launch_readReg s.params s.mem rest hcmd hclass
  exact ⟨_, step_reset hscript, hregs, rfl, rfl, rfl, rfl, rfl, rfl⟩

/-- Settles O20: at launch both descriptors are empty, so well-formed and too short, and the payload length is 0. -/
theorem commandsAfterReset : Obligations.CommandsAfterReset := fun p m ops =>
  ⟨execFdec_noBody (State.launch_srcOk p m ops) (Nat.zero_le _),
    execHenc_bufferTooShort (State.launch_dstOk p m ops) (Nat.zero_lt_succ _), rfl⟩

end

section
/-! SUPPORT. What a well-formed range is, what two meeting ranges share, and what a command that completes leaves of the
address space (R60, R62, R63). -/

namespace Sys2Proof.Machine

variable {p : Params} {s t : State}

/-! ### Ranges -/

theorem inMem_iff {a : Nat} : inMem p a = true ↔ ∃ r ∈ p.mem, r.base ≤ a ∧ a < r.base + r.size := by
  simp [inMem]

/-- A range is well-formed exactly when it is empty, or ends within the address space with every address in `MEM`
(R60). -/
theorem wellFormedRange_iff {base len : Nat} :
    wellFormedRange p base len = true ↔
      len = 0 ∨ (base + len ≤ 2 ^ p.aw ∧ ∀ a, base ≤ a → a < base + len → inMem p a = true) := by
  have hoffset : (∀ i, i < len → inMem p (base + i) = true) ↔
      ∀ a, base ≤ a → a < base + len → inMem p a = true := by
    constructor
    · intro h a hbase hend
      have hin := h (a - base) (by omega)
      rwa [Nat.add_sub_cancel' hbase] at hin
    · exact fun h i hi => h _ (Nat.le_add_right _ _) (Nat.add_lt_add_left hi _)
  simp only [wellFormedRange, Bool.or_eq_true, Bool.and_eq_true, decide_eq_true_eq, List.all_eq_true, List.mem_range,
    hoffset]

/-- What is left of a well-formed range past its first `k` bytes is well-formed. -/
theorem wellFormedRange_drop {base len k : Nat} (h : wellFormedRange p base len = true) (hk : k ≤ len) :
    wellFormedRange p (base + k) (len - k) = true := by
  obtain h0 | ⟨hend, hall⟩ := wellFormedRange_iff.1 h
  · exact wellFormedRange_iff.2 (.inl (by omega))
  · exact wellFormedRange_iff.2 (.inr ⟨by omega, fun a hbase ha => hall a (by omega) (by omega)⟩)

/-- The first `n` bytes of a well-formed range, if there are any, end within the address space (R62). -/
theorem add_le_of_wellFormedRange_of_le {base len n : Nat} (h : wellFormedRange p base len = true) (hpos : 0 < n)
    (hn : n ≤ len) : base + n ≤ 2 ^ p.aw :=
  Nat.le_trans (Nat.add_le_add_left hn _) (add_le_of_wellFormedRange h (Nat.lt_of_lt_of_le hpos hn))

/-- Two ranges meet exactly when some address lies in both; the higher of the two bases is such an address (R63). -/
theorem rangesMeet_iff {base₁ len₁ base₂ len₂ : Nat} :
    rangesMeet base₁ len₁ base₂ len₂ = true ↔
      ∃ a, (base₁ ≤ a ∧ a < base₁ + len₁) ∧ base₂ ≤ a ∧ a < base₂ + len₂ := by
  simp only [rangesMeet, Bool.and_eq_true, decide_eq_true_eq]
  constructor
  · rintro ⟨⟨⟨h₁, h₂⟩, hlt₁⟩, hlt₂⟩
    exact ⟨max base₁ base₂, by omega, by omega⟩
  · rintro ⟨a, ⟨hle₁, hlt₁⟩, hle₂, hlt₂⟩
    omega

/-! ### Commands that complete with STATUS 0 -/

/-- A command that answers STATUS 0 has not raised: of the two ways to answer, the second is left (R151). -/
theorem completed_of_status_zero {c : Condition} {guard work : Prop}
    (h : (guard ∧ t = s.setStatus c.code) ∨ work)
    (hok : t.status = 0#8) : work := by
  obtain ⟨_, rfl⟩ | hwork := h
  · exact absurd hok c.code_ne_zero
  · exact hwork

theorem execHdec_completed (h : execHdec s = .next t) (hok : t.status = 0#8) :
    s.srcOk = true ∧ 14 ≤ s.srcLen ∧ t = ((s.setHeader (s.headerAt s.srcBase)).setResLen 14).setStatus 0#8 := by
  obtain ⟨hsrc, hcases⟩ := execHdec_next h
  exact ⟨hsrc, completed_of_status_zero hcases hok⟩

theorem execHenc_completed (h : execHenc s = .next t) (hok : t.status = 0#8) :
    s.dstOk = true ∧ 14 ≤ s.dstCap ∧
      t = ((s.setMem (s.mem.writeN s.dstBase (hdrPack s.header))).setResLen 14).setStatus 0#8 := by
  obtain ⟨hdst, hcases⟩ := execHenc_next h
  exact ⟨hdst, completed_of_status_zero hcases hok⟩

theorem execFdec_completed (h : execFdec s = .next t) (hok : t.status = 0#8) :
    s.srcOk = true ∧ 14 < s.srcLen ∧
      t = ((((s.setHeader (s.headerAt s.srcBase)).setPayBase (s.srcBase + 14)).setPayLen
        (s.srcLen - 14)).setResLen s.srcLen).setStatus 0#8 := by
  obtain ⟨hsrc, hcases⟩ := execFdec_next h
  exact ⟨hsrc, completed_of_status_zero hcases hok⟩

/-- The payload descriptor a completed FDEC leaves is the rest of the source range past the header (R121). -/
theorem execFdec_completed_payload (h : execFdec s = .next t) (hok : t.status = 0#8) :
    t.params = s.params ∧ t.payBase = s.srcBase + 14 ∧ t.payLen = s.srcLen - 14 := by
  obtain ⟨_, _, rfl⟩ := execFdec_completed h hok
  simp

theorem execFenc_completed (h : execFenc s = .next t) (hok : t.status = 0#8) :
    s.dstOk = true ∧ s.payOk = true ∧ 14 + s.payLen ≤ s.dstCap ∧
      t = ((s.storeFrame s.payload).setResLen (14 + s.payLen)).setStatus 0#8 := by
  obtain ⟨hdst, hpay, _, hcases⟩ := execFenc_next h
  exact ⟨hdst, hpay, completed_of_status_zero hcases hok⟩

theorem execOdec_completed (h : execOdec s = .next t) (hok : t.status = 0#8) :
    s.srcOk = true ∧ 14 < s.srcLen ∧ s.srcLen - 14 ≤ s.params.ownCap ∧
      t = (((s.setHeader (s.headerAt s.srcBase)).setOwn
        (s.mem.readN (s.srcBase + 14) (s.srcLen - 14))).setResLen s.srcLen).setStatus 0#8 := by
  obtain ⟨hsrc, hcases⟩ := execOdec_next h
  exact ⟨hsrc, completed_of_status_zero hcases hok⟩

theorem execOenc_completed (h : execOenc s = .next t) (hok : t.status = 0#8) :
    s.dstOk = true ∧ 14 + s.own.length ≤ s.dstCap ∧
      t = ((s.storeFrame s.own).setResLen (14 + s.own.length)).setStatus 0#8 := by
  obtain ⟨hdst, hcases⟩ := execOenc_next h
  exact ⟨hdst, completed_of_status_zero hcases hok⟩

end Sys2Proof.Machine

open Sys2Proof Sys2Proof.Machine

/-- Settles O50: offsets below the length are the addresses of the range, and `MEM` is the union of its regions. -/
theorem wellFormedDescriptor : Obligations.WellFormedDescriptor := by
  intro p base len
  simp only [wellFormedRange_iff, inMem_iff]

/-- Settles O28: what a completed command touches starts at the base of a well-formed descriptor and is no longer than
it, or is the rest of one. -/
theorem addressesNeverWrap : Obligations.AddressesNeverWrap := by
  refine ⟨fun s t hx hok => ?hdec, fun s t hx hok => ?henc, fun s t hx hok => ?fdec, fun s t hx hok => ?odec,
    fun s t hx hok => ?fenc, fun s t hx hok => ?oenc, fun s t hx hpos => ?toown⟩
  case hdec =>
    obtain ⟨hsrc, hlen, _⟩ := execHdec_completed hx hok
    exact add_le_of_wellFormedRange_of_le hsrc (by decide) hlen
  case henc =>
    obtain ⟨hdst, hcap, _⟩ := execHenc_completed hx hok
    exact add_le_of_wellFormedRange_of_le hdst (by decide) hcap
  case fdec =>
    obtain ⟨hsrc, hlen, _⟩ := execFdec_completed hx hok
    obtain ⟨hparams, hpayBase, hpayLen⟩ := execFdec_completed_payload hx hok
    have hend := add_le_of_wellFormedRange hsrc (Nat.zero_lt_of_lt hlen)
    have hpay : t.payOk = true := by
      rw [State.payOk, hparams, hpayBase, hpayLen]
      exact wellFormedRange_drop hsrc (Nat.le_of_lt hlen)
    exact ⟨by omega, hend, by omega, by omega, hpay⟩
  case odec =>
    obtain ⟨hsrc, hlen, _⟩ := execOdec_completed hx hok
    have hend := add_le_of_wellFormedRange hsrc (Nat.zero_lt_of_lt hlen)
    exact ⟨by omega, hend⟩
  case fenc =>
    obtain ⟨hdst, hpay, hcap, _⟩ := execFenc_completed hx hok
    have hend := add_le_of_wellFormedRange_of_le hdst (by omega) hcap
    exact ⟨hend, fun hpos => ⟨by omega, add_le_of_wellFormedRange hpay hpos⟩⟩
  case oenc =>
    obtain ⟨hdst, hcap, _⟩ := execOenc_completed hx hok
    have hend := add_le_of_wellFormedRange_of_le hdst (by omega) hcap
    refine ⟨hend, fun hne => ?_⟩
    have hpos := List.length_pos_of_ne_nil hne
    omega
  case toown =>
    obtain ⟨hpay, _, _⟩ := execToown_next hx
    exact add_le_of_wellFormedRange hpay hpos

end

section
/-! SUPPORT. What a command is refused for: an ill-formed descriptor before everything else, an overlap only in FENC
(R60, R63, R159). -/

namespace Sys2Proof.Machine

variable {s : State}

/-- An ill-formed descriptor is refused whatever the command would go on to do (R60, R159). -/
theorem refused_of_descriptor_check {ok : Bool} {x : Result} (h : ok = false) :
    (if !ok then refuse .badDescriptor else x) = .refused .badDescriptor := by
  simp [h]

theorem execHdec_badDescriptor (h : s.srcOk = false) : execHdec s = .refused .badDescriptor :=
  refused_of_descriptor_check h

theorem execFdec_badDescriptor (h : s.srcOk = false) : execFdec s = .refused .badDescriptor :=
  refused_of_descriptor_check h

/-- HENC is refused for its descriptor only: past the check it raises or completes (R116). -/
theorem execHenc_refused {r : Refusal} (h : execHenc s = .refused r) : r = .badDescriptor := by
  unfold execHenc at h
  split at h
  · simpa using h.symm
  · split at h <;> simp at h

/-- OENC is refused for its descriptor only: past the check it raises or completes (R132). -/
theorem execOenc_refused {r : Refusal} (h : execOenc s = .refused r) : r = .badDescriptor := by
  unfold execOenc at h
  split at h
  · simpa using h.symm
  · split at h <;> simp at h

/-- With both descriptors well-formed, FENC is refused for the overlap exactly when its test finds one (R122). -/
theorem execFenc_overlap_iff (hdst : s.dstOk = true) (hpay : s.payOk = true) :
    execFenc s = .refused .overlap ↔ s.payMeetsDst = true := by
  cases hmeet : s.payMeetsDst with
  | true => simp [execFenc, hdst, hpay, hmeet]
  | false =>
    by_cases hcap : s.dstCap < hdrLen + s.payLen
    · simp [execFenc, hdst, hpay, hmeet, hcap]
    · simp [execFenc, hdst, hpay, hmeet, hcap]

end Sys2Proof.Machine

open Sys2Proof Sys2Proof.Machine

/-- Settles O49: each command's descriptors are checked first, FENC's destination before its payload. -/
theorem illFormedDescriptorRefused : Obligations.IllFormedDescriptorRefused := by
  intro i s hformat hbad
  cases i with
  | hdec | henc | fdec | odec | oenc | toown => exact refused_of_descriptor_check hbad
  | fenc =>
    obtain hdst | hpay := Bool.and_eq_false_iff.1 hbad
    · exact refused_of_descriptor_check hdst
    · show execFenc s = _
      unfold execFenc
      rw [refused_of_descriptor_check hpay]
      exact ite_self _
  | hdec14 | henc14 | flen | olen => cases hbad
  | eth2Header | eth2Frame | etypeIpv6 | etypeUnknown => cases hformat

/-- Settles O30: FENC's test finds an overlap exactly when the ranges share an address; HENC and OENC have no such
test. -/
theorem overlapRefusedExactly : Obligations.OverlapRefusedExactly := fun _ =>
  ⟨fun hdst hpay => (execFenc_overlap_iff hdst hpay).trans rangesMeet_iff,
    fun h => Refusal.noConfusion (execHenc_refused h), fun h => Refusal.noConfusion (execOenc_refused h)⟩

end

section
/-! SUPPORT. Which bytes of M a command writes (R58). -/

namespace Sys2Proof.Machine

/-- A byte that a wide write changes is one of those written. -/
theorem Memory.mem_range_of_read_writeN_ne {m : Memory} {addr : Nat} {bs : List Byte} {a : Nat}
    (h : (m.writeN addr bs).read a ≠ m.read a) : addr ≤ a ∧ a < addr + bs.length :=
  Decidable.by_contra fun hout => h (Memory.read_writeN_outside m addr bs a hout)

/-- A byte that storing a frame changes is one of the frame's (R122, R132). -/
theorem State.mem_range_of_storeFrame_ne {s : State} {b : List Byte} {a : Nat}
    (h : (s.storeFrame b).mem.read a ≠ s.mem.read a) : s.dstBase ≤ a ∧ a < s.dstBase + (14 + b.length) := by
  rw [State.storeFrame_mem] at h
  simpa using Memory.mem_range_of_read_writeN_ne h

/-- A command that is no encode leaves M as it is (R58). -/
theorem exec_mem_of_not_encode {i : Instr} {s t : State} (hformat : i.format = .cmd8) (hx : exec i s = .next t)
    (hi : i ∉ [Instr.henc, .fenc, .oenc]) : t.mem = s.mem := by
  obtain ⟨_, _, _, _, _, _, _, _, _, _, _, _, hmem⟩ := writtenByColumn i s t hformat hx
  exact hmem hi

end Sys2Proof.Machine

open Sys2Proof Sys2Proof.Machine

/-- Settles O54: only a completed encode changes M, in the bytes it stores, which fit the destination. -/
theorem writesOnlyInsideDestination : Obligations.WritesOnlyInsideDestination := by
  intro i s t a hformat hx hne
  cases i with
  | henc =>
    obtain ⟨_, ⟨_, rfl⟩ | ⟨hcap, rfl⟩⟩ := execHenc_next hx
    · exact absurd rfl hne
    · obtain ⟨hle, hlt⟩ := Memory.mem_range_of_read_writeN_ne hne
      exact ⟨hle, by simpa [encodedLength] using hlt, hcap⟩
  | fenc =>
    obtain ⟨_, _, _, ⟨_, rfl⟩ | ⟨hcap, rfl⟩⟩ := execFenc_next hx
    · exact absurd rfl hne
    · obtain ⟨hle, hlt⟩ := State.mem_range_of_storeFrame_ne hne
      exact ⟨hle, by simpa [encodedLength] using hlt, hcap⟩
  | oenc =>
    obtain ⟨_, ⟨_, rfl⟩ | ⟨hcap, rfl⟩⟩ := execOenc_next hx
    · exact absurd rfl hne
    · obtain ⟨hle, hlt⟩ := State.mem_range_of_storeFrame_ne hne
      exact ⟨hle, hlt, hcap⟩
  | hdec14 | henc14 | hdec | fdec | flen | odec | toown | olen =>
    exact absurd (congrArg (Memory.read · a) (exec_mem_of_not_encode hformat hx (by decide))) hne
  | eth2Header | eth2Frame | etypeIpv6 | etypeUnknown => cases hformat

end

section
/-! SUPPORT. Which bytes of M the header decodes read (R59). -/

namespace Sys2Proof.Machine

variable {s : State} {m : Memory}

/-- A header read is fixed by the 14 bytes at its address. -/
theorem State.headerAt_setMem {addr : Nat} (h : m.readN addr 14 = s.mem.readN addr 14) :
    (s.setMem m).headerAt addr = s.headerAt addr := congrArg hdrUnpack h

/-- HDEC of a well-formed source below 14 bytes raises TooShort (R115). -/
theorem execHdec_tooShort (hsrc : s.srcOk = true) (hlen : s.srcLen < 14) :
    execHdec s = .next (s.setStatus Condition.tooShort.code) := by
  simp [execHdec, hsrc, hlen]

/-- HDEC of a well-formed source of 14 bytes or more decodes the header at its base (R115). -/
theorem execHdec_decodes (hsrc : s.srcOk = true) (hlen : 14 ≤ s.srcLen) :
    execHdec s = .next (((s.setHeader (s.headerAt s.srcBase)).setResLen 14).setStatus 0#8) := by
  simp [execHdec, hsrc, Nat.not_lt.2 hlen]

/-- FDEC of a well-formed source with a payload byte decodes the header and leaves the rest as the payload (R121). -/
theorem execFdec_decodes (hsrc : s.srcOk = true) (hlen : 14 < s.srcLen) :
    execFdec s = .next (((((s.setHeader (s.headerAt s.srcBase)).setPayBase (s.srcBase + 14)).setPayLen
      (s.srcLen - 14)).setResLen s.srcLen).setStatus 0#8) := by
  simp [execFdec, hsrc, Nat.not_le.2 hlen]

/-- HDEC looks at M only past its guards, and there at the header (R115). -/
theorem execHdec_setMem (h : 14 ≤ s.srcLen → m.readN s.srcBase 14 = s.mem.readN s.srcBase 14) :
    execHdec (s.setMem m) = mapNext (fun t => t.setMem m) (execHdec s) := by
  have hok : (s.setMem m).srcOk = s.srcOk := rfl
  cases hsrc : s.srcOk with
  | false =>
    rw [execHdec_badDescriptor hsrc, execHdec_badDescriptor (hok.trans hsrc)]
    rfl
  | true =>
    by_cases hlen : s.srcLen < 14
    · rw [execHdec_tooShort hsrc hlen, execHdec_tooShort (hok.trans hsrc) hlen]
      rfl
    · have hlen := Nat.le_of_not_lt hlen
      rw [execHdec_decodes hsrc hlen, execHdec_decodes (hok.trans hsrc) hlen, State.setMem_srcBase,
        State.headerAt_setMem (h hlen)]
      rfl

/-- FDEC looks at M only past its guards, and there at the header (R121). -/
theorem execFdec_setMem (h : 14 < s.srcLen → m.readN s.srcBase 14 = s.mem.readN s.srcBase 14) :
    execFdec (s.setMem m) = mapNext (fun t => t.setMem m) (execFdec s) := by
  have hok : (s.setMem m).srcOk = s.srcOk := rfl
  cases hsrc : s.srcOk with
  | false =>
    rw [execFdec_badDescriptor hsrc, execFdec_badDescriptor (hok.trans hsrc)]
    rfl
  | true =>
    by_cases hlen : s.srcLen ≤ 14
    · rw [execFdec_noBody hsrc hlen, execFdec_noBody (hok.trans hsrc) hlen]
      rfl
    · have hlen := Nat.lt_of_not_le hlen
      rw [execFdec_decodes hsrc hlen, execFdec_decodes (hok.trans hsrc) hlen, State.setMem_srcBase,
        State.headerAt_setMem (h hlen)]
      rfl

end Sys2Proof.Machine

open Sys2Proof Sys2Proof.Machine

/-- Settles O26: replacing M is `setMem`, which both decodes pass through unread but for the header. -/
theorem headerDecodeReadsFourteenBytes : Obligations.HeaderDecodeReadsFourteenBytes :=
  fun _ _ => ⟨execHdec_setMem, execFdec_setMem⟩

end

section
/-! SUPPORT. A MAC address's six bytes and a header's 14 are what was decoded from them (R101, R112). -/

namespace Sys2Proof

/-- A byte appended to a word is its last digit to base 256. -/
theorem toNat_append_byte {n : Nat} (x : BitVec n) (y : Byte) : (x ++ y).toNat = x.toNat * 256 + y.toNat := by
  rw [BitVec.toNat_append, ← Nat.shiftLeft_add_eq_or_of_lt y.isLt, Nat.shiftLeft_eq]

/-- `mac_encode` spells the address's number in six bytes (R101). -/
theorem macEncode_eq (a : Mac) : macEncode a = bytesOfNat 6 a.toNat := by
  refine List.map_congr_left fun k hk => BitVec.eq_of_toNat_eq ?_
  have hk := List.mem_range.1 hk
  rw [BitVec.extractLsb'_toNat, BitVec.toNat_ofNat, Nat.shiftRight_eq_div_pow, show (256 : Nat) = 2 ^ 8 from rfl,
    ← Nat.pow_mul]
  congr 3
  omega

/-- `mac_decode` is the number its six bytes spell (R100). -/
theorem macDecode_toNat {m : List Byte} (h : m.length = 6) : (macDecode m).toNat = natOfBytes m := by
  obtain ⟨a, b, c, d, e, f, rfl⟩ : ∃ a b c d e f, m = [a, b, c, d, e, f] :=
    match m, h with
    | [a, b, c, d, e, f], _ => ⟨a, b, c, d, e, f, rfl⟩
  simp [macDecode, byteAt, natOfBytes, toNat_append_byte]

/-- Encoding a decoded MAC address gives its six bytes back (R101). -/
theorem macEncode_macDecode {m : List Byte} (h : m.length = 6) : macEncode (macDecode m) = m := by
  rw [macEncode_eq, macDecode_toNat h, ← h, bytesOfNat_natOfBytes]

/-- 14 bytes are two slices of six and two bytes (R80). -/
theorem slices_append_eq {b : List Byte} (h : b.length = 14) :
    slice b 0 6 ++ slice b 6 6 ++ [byteAt b 12, byteAt b 13] = b := by
  have htail : [byteAt b 12, byteAt b 13] = b.drop (6 + 6) := by
    rw [List.drop_eq_getElem_cons (by omega), List.drop_eq_getElem_cons (by omega), List.drop_eq_nil_of_le (by omega)]
    simp [byteAt, h]
  rw [htail, slice, slice, List.drop_zero, List.append_assoc, ← List.drop_drop, List.take_append_drop,
    List.take_append_drop]

/-- Packing an unpacked header gives its 14 bytes back (R112). -/
theorem hdrPack_hdrUnpack {b : List Byte} (h : b.length = 14) : hdrPack (hdrUnpack b) = b := by
  have hdst : (slice b 0 6).length = 6 := by simp [slice, h]
  have hsrc : (slice b 6 6).length = 6 := by simp [slice, h]
  simp only [hdrPack, hdrUnpack, macEncode_macDecode hdst, macEncode_macDecode hsrc, hi8_be16, lo8_be16,
    slices_append_eq h]

end Sys2Proof
end

section
/-! SUPPORT. The bytes a frame's encode leaves, and the borrowed frame after a host write to M (R64, R65). -/

namespace Sys2Proof.Machine

/-- A decoded header packs to the 14 bytes it was read from. -/
theorem State.hdrPack_headerAt (s : State) (addr : Nat) : hdrPack (s.headerAt addr) = s.mem.readN addr 14 :=
  hdrPack_hdrUnpack (Memory.readN_length ..)

/-- The bytes a stored frame leaves at DST_BASE are its header image and its payload (R122, R132). -/
theorem State.readN_storeFrame (s : State) (b : List Byte) :
    (s.storeFrame b).mem.readN s.dstBase (14 + b.length) = hdrPack s.header ++ b := by
  rw [State.storeFrame_mem]
  simpa using Memory.readN_writeN s.mem s.dstBase (hdrPack s.header ++ b)

/-- The bytes a completed FENC leaves at DST_BASE are the header's and the payload's as M held it (R122). -/
theorem execFenc_completed_readN {s t : State} (h : execFenc s = .next t) (hok : t.status = 0#8) :
    t.mem.readN s.dstBase (14 + s.payLen) = hdrPack s.header ++ s.mem.readN s.payBase s.payLen := by
  obtain ⟨_, _, _, rfl⟩ := execFenc_completed h hok
  simpa [State.payload] using s.readN_storeFrame s.payload

/-- Inside the written range a read gives the written byte. -/
theorem Memory.read_writeN_getElem? (m : Memory) {addr a : Nat} {bs : List Byte} (hle : addr ≤ a)
    (hlt : a < addr + bs.length) : some ((m.writeN addr bs).read a) = bs[a - addr]? := by
  obtain ⟨k, rfl⟩ := Nat.exists_eq_add_of_le hle
  have hk : k < bs.length := by omega
  rw [Memory.read_writeN_inside m addr bs k hk, Nat.add_sub_cancel_left, List.getElem?_eq_getElem hk]

end Sys2Proof.Machine

open Sys2Proof Sys2Proof.Machine

/-- Settles O35: the host's write leaves the header register and the payload descriptor FDEC set; FENC and TOOWN read
through the descriptor. -/
theorem payloadIsViewHeaderIsCopy : Obligations.PayloadIsViewHeaderIsCopy := by
  intro s t u addr b hfdec hok hmw
  obtain ⟨_, _, rfl⟩ := execFdec_completed hfdec hok
  obtain ⟨_, rfl⟩ := hostMw_next hmw
  refine ⟨rfl, fun v hfenc hv => ?_, fun v htoown => ?_, fun a hle hlt => Memory.read_writeN_getElem? _ hle hlt⟩
  · rw [execFenc_completed_readN hfenc hv, ← s.hdrPack_headerAt]
    rfl
  · obtain ⟨_, _, rfl⟩ := execToown_next htoown
    rfl

end

section
/-! SUPPORT. The codec's bytes as numbers, and the decoder on what the encoder answers (R80, R81, R85, R88). -/

namespace Sys2Proof

/-! ### Numbers -/

/-- Appending a word of `m` bits shifts the first by `m` bits and adds the second. -/
theorem toNat_append_mul {n m : Nat} (x : BitVec n) (y : BitVec m) :
    (x ++ y).toNat = x.toNat * 2 ^ m + y.toNat := by
  rw [BitVec.toNat_append, ← Nat.shiftLeft_add_eq_or_of_lt y.isLt, Nat.shiftLeft_eq]

theorem natOfBytes_singleton (c : Byte) : natOfBytes [c] = c.toNat := by simp [natOfBytes]

/-- The bytes of two sequences end to end spell the first number shifted past the second. -/
theorem natOfBytes_append (b c : List Byte) :
    natOfBytes (b ++ c) = natOfBytes b * 256 ^ c.length + natOfBytes c := by
  induction c using List.reverseRecOn with
  | nil => simp
  | append_singleton c x ih =>
    rw [← List.append_assoc, natOfBytes_snoc, natOfBytes_snoc, ih, List.length_append, List.length_singleton, pow_succ]
    ring

/-- `mac_encode` spells the address's number (R101). -/
theorem natOfBytes_macEncode (a : Mac) : natOfBytes (macEncode a) = a.toNat := by
  rw [macEncode_eq, natOfBytes_bytesOfNat]
  exact Nat.mod_eq_of_lt a.isLt

/-- `be16(h, l)` is the number its two bytes spell (R12). -/
theorem be16_toNat (h l : Byte) : (be16 h l).toNat = natOfBytes [h, l] := by
  simp [be16, natOfBytes, toNat_append_byte]

/-- A header's wire image is its fields end to end (R80, R112). -/
theorem wireImage_hdrPack (h : Header) : wireImage (hdrPack h) = h.dst ++ h.src ++ h.et := by
  apply BitVec.eq_of_toNat_eq
  rw [wireImage_toNat _ (hdrPack_length h), hdrPack, natOfBytes_append, natOfBytes_append, natOfBytes_macEncode,
    natOfBytes_macEncode, ← be16_toNat, be16_hi8_lo8, toNat_append_mul, toNat_append_mul, macEncode_length]
  norm_num

/-! ### Decoding what was encoded -/

/-- Decoding an encoded MAC address gives it back (R101). -/
theorem macDecode_macEncode (a : Mac) : macDecode (macEncode a) = a := by
  apply BitVec.eq_of_toNat_eq
  rw [macDecode_toNat (macEncode_length a), natOfBytes_macEncode]

/-- Unpacking reads the 14 bytes of a packed header and nothing after them (R110, R112). -/
theorem hdrUnpack_hdrPack_append (h : Header) (p : List Byte) : hdrUnpack (hdrPack h ++ p) = h := by
  have hdst : slice (hdrPack h ++ p) 0 6 = macEncode h.dst := by
    simp [slice, hdrPack]
  have hsrc : slice (hdrPack h ++ p) 6 6 = macEncode h.src := by
    simp [slice, hdrPack]
  have hhi : byteAt (hdrPack h ++ p) 12 = hi8 h.et := by
    simp [byteAt, hdrPack, List.getElem?_append]
  have hlo : byteAt (hdrPack h ++ p) 13 = lo8 h.et := by
    simp [byteAt, hdrPack, List.getElem?_append]
  simp only [hdrUnpack, hdst, hsrc, hhi, hlo, macDecode_macEncode, be16_hi8_lo8]

/-- Unpacking a packed header gives it back (R112). -/
theorem hdrUnpack_hdrPack (h : Header) : hdrUnpack (hdrPack h) = h := by
  simpa using hdrUnpack_hdrPack_append h []

/-- The 14 bytes of fields put end to end are the packed header (R30, R80). -/
theorem wireBytes_eq_hdrPack (h : Header) : wireBytes (h.dst ++ h.src ++ h.et) = hdrPack h := by
  rw [← wireImage_hdrPack, wireBytes_wireImage _ (hdrPack_length h)]

/-- A wire image is its bits 111:64, 63:16 and 15:0 end to end (R30). -/
theorem wire_eq_fields (w : Wire) : w.extractLsb' 64 48 ++ w.extractLsb' 16 48 ++ w.extractLsb' 0 16 = w := by
  rw [BitVec.extractLsb'_append_extractLsb'_eq_extractLsb' (by decide),
    BitVec.extractLsb'_append_extractLsb'_eq_extractLsb' (by decide), BitVec.extractLsb'_eq_self]

/-! ### Command words -/

/-- A command word is its fields RSV and OP (R85). -/
theorem rsvField_append_opField (c : Byte) : rsvField c ++ opField c = c :=
  (BitVec.extractLsb'_append_extractLsb'_eq_extractLsb' (by decide)).trans BitVec.extractLsb'_eq_self

/-- The operation codes of R86, read backwards: what a code selects is a command, and its word is RSV 0 and the code. -/
theorem decodeOp_sound : ∀ op : BitVec 4, ∀ i ∈ (decodeOp op).toOption,
    i.wellFormed = true ∧ i.format = .cmd8 ∧ encode i = [0#4 ++ op] := by
  decide

/-- What a command word decodes to is a command with that word (R85, R86). -/
theorem decodeCommand_sound {c : Byte} {i : Instr} (h : decodeCommand c = .ok i) :
    i.wellFormed = true ∧ i.format = .cmd8 ∧ encode i = [c] := by
  unfold decodeCommand at h
  split at h
  next hrsv =>
    have hop := decodeOp_sound (opField c) i (by simp [h, Except.toOption])
    rwa [← hrsv, rsvField_append_opField] at hop
  next => cases h

/-! ### EtherType codes -/

theorem decodeEtype_wellFormed (c : EtCode) : (decodeEtype c).wellFormed = true := by
  unfold decodeEtype
  split
  next => rfl
  next hc => simpa [Instr.wellFormed] using hc

theorem decodeEtype_format (c : EtCode) : (decodeEtype c).format = .etype16 := by
  unfold decodeEtype
  split <;> rfl

/-- The row of a code encodes to the code's two bytes, most significant first (R52, R88). -/
theorem encode_decodeEtype (c : EtCode) : encode (decodeEtype c) = [hi8 c, lo8 c] := by
  unfold decodeEtype
  split
  next hc => subst hc; decide
  next => rfl

/-- A two-byte sequence is the bytes of the code it spells (R52). -/
theorem hi8_lo8_of_length {b : List Byte} (h : b.length = 2) :
    [hi8 (be16 (byteAt b 0) (byteAt b 1)), lo8 (be16 (byteAt b 0) (byteAt b 1))] = b := by
  match b, h with
  | [x, y], _ => simp [byteAt]

/-! ### Headers at the front of a longer sequence -/

/-- Unpacking reads the first 14 bytes only (R110). -/
theorem hdrUnpack_take (b : List Byte) : hdrUnpack (b.take 14) = hdrUnpack b := by
  simp [hdrUnpack, slice, byteAt, macLen, List.take_take, List.drop_take]

/-- A sequence of at least 14 bytes is its header's image and the rest (R81, R84). -/
theorem hdrPack_hdrUnpack_append_drop {b : List Byte} (h : 14 ≤ b.length) :
    hdrPack (hdrUnpack b) ++ b.drop 14 = b := by
  rw [← hdrUnpack_take, hdrPack_hdrUnpack (List.length_take_of_le h), List.take_append_drop]

end Sys2Proof

open Sys2Proof

/-- Settles O1: each command word is in the table of R86; a header or a frame is unpacked from the bytes it was packed
into; an unknown code is put together again from its two bytes, and is not the known one. -/
theorem decodeOfEncode : Obligations.DecodeOfEncode := by
  intro i hwf
  cases i with
  | hdec14 | henc14 | hdec | henc | fdec | fenc | flen | odec | oenc | toown | olen | etypeIpv6 => rfl
  | eth2Header dst src et => simp [decode, Instr.format, encode, hdrUnpack_hdrPack]
  | eth2Frame dst src et payload =>
    have hpos : 0 < payload.length := by simpa [Instr.wellFormed, List.length_pos_iff] using hwf
    simp [decode, Instr.format, encode, hdrUnpack_hdrPack_append, hpos]
  | etypeUnknown raw =>
    have hraw : raw ≠ 0x86DD#16 := by simpa [Instr.wellFormed] using hwf
    simp [decode, Instr.format, encode, byteAt, decodeEtype, hraw]

/-- Settles O2: by the format, whose decoder's answer is packed again from the fields it was unpacked into. -/
theorem encodeOfDecode : Obligations.EncodeOfDecode := by
  intro f b i h
  have hlen := decode_length h
  cases f with
  | cmd8 =>
    obtain ⟨c, rfl⟩ := List.length_eq_one_iff.1 hlen
    exact decodeCommand_sound h
  | etype16 =>
    obtain rfl : decodeEtype (be16 (byteAt b 0) (byteAt b 1)) = i := by simpa [decode, hlen] using h
    exact ⟨decodeEtype_wellFormed _, decodeEtype_format _, (encode_decodeEtype _).trans (hi8_lo8_of_length hlen)⟩
  | wire112 =>
    obtain rfl : _ = i := by simpa [decode, hlen] using h
    exact ⟨rfl, rfl, hdrPack_hdrUnpack hlen⟩
  | wireFrame =>
    obtain rfl : _ = i := by simpa [decode, hlen] using h
    exact ⟨by simpa [Instr.wellFormed] using hlen, rfl, hdrPack_hdrUnpack_append_drop hlen.le⟩

/-- Settles O3: the bytes are the encodings of the instructions they are said to stand for. -/
theorem writtenOutWordsDecode : Obligations.WrittenOutWordsDecode :=
  ⟨decodeOfEncode .fdec rfl, decodeOfEncode .toown rfl, decodeOfEncode .etypeIpv6 rfl,
    decodeOfEncode (.etypeUnknown 0xDD86#16) rfl,
    decodeOfEncode (.eth2Header 0x008041FFF00D#48 0x008041BABEFF#48 0x86DD#16) rfl⟩

/-- Settles O11: the fields stand end to end in the packed bytes, and the wire image is its three slices packed. -/
theorem headerLayout : Obligations.HeaderLayout := by
  refine ⟨fun h => ⟨hdrPack_length h, fun k hk => ?_, fun k hk => ?_, ?_, ?_⟩, fun w => ?_⟩
  · rw [hdrPack, List.append_assoc, List.getElem?_append_left (by simpa using hk)]
  · rw [hdrPack, List.getElem?_append_left (by simp; omega), List.getElem?_append_right (by simp)]
    simp
  · simp [hdrPack, hi8]
  · simp [hdrPack, lo8]
  · have hw := wireBytes_eq_hdrPack ⟨w.extractLsb' 64 48, w.extractLsb' 16 48, w.extractLsb' 0 16⟩
    rw [wire_eq_fields] at hw
    rw [hw, hdrUnpack_hdrPack]

end

section
/-! SUPPORT. The host operation that carries an instruction's bytes to where its format belongs is what the instruction
means; a reserved word is no instruction (R86, R87, R141, R143, R146; log entries 5 and 6). -/

namespace Sys2Proof.Machine

/-! ### Command words -/

/-- A command's encoding is one byte in 0x01 to 0x0B, and every command is well-formed (R85, R86). -/
theorem encode_command {i : Instr} (h : i.format = .cmd8) :
    i.wellFormed = true ∧ ∃ c : Byte, encode i = [c] ∧ 0x01 ≤ c.toNat ∧ c.toNat ≤ 0x0B := by
  cases i with
  | eth2Header | eth2Frame | etypeIpv6 | etypeUnknown => cases h
  | hdec14 | henc14 | hdec | henc | fdec | fenc | flen | odec | oenc | toown | olen =>
    exact ⟨rfl, _, rfl, by decide, by decide⟩

/-- A word outside 0x01 to 0x0B decodes to no instruction (R87). -/
theorem decode_reserved {c : Byte} (h : ¬(0x01 ≤ c.toNat ∧ c.toNat ≤ 0x0B)) (i : Instr) :
    decode .cmd8 [c] ≠ .ok i := by
  intro hdec
  obtain ⟨_, hformat, henc⟩ := encodeOfDecode .cmd8 [c] i hdec
  obtain ⟨_, c', henc', hc'⟩ := encode_command hformat
  obtain ⟨rfl⟩ := henc.symm.trans henc'
  exact h hc'

/-- Issuing a word that decodes runs its command (R146). -/
theorem issueCommand_of_decode {c : Byte} {i : Instr} (h : decode .cmd8 [c] = .ok i) (s : State) :
    issueCommand c s = exec i s := by
  simp only [issueCommand, h]

/-- Issuing a reserved word is refused (R87). -/
theorem issueCommand_reserved {c : Byte} (h : ¬(0x01 ≤ c.toNat ∧ c.toNat ≤ 0x0B)) (s : State) :
    issueCommand c s = .refused .reservedCommand := by
  unfold issueCommand
  split
  next i hdec => exact absurd hdec (decode_reserved h i)
  next => rfl

/-! ### Register writes -/

/-- A byte written to CMD is issued as a command word (R146). -/
theorem hostWr_cmd (c : Byte) (s : State) : hostWr 0x00 c.toNat s = issueCommand c s := by
  simp [hostWr, regOfNumber, Reg.access, Reg.width, c.isLt]

/-- A value that fits a register the host may write, and that is not CMD, is stored there (R141). -/
theorem hostWr_writeReg {n v : Nat} {r : Reg} {s : State} (hr : regOfNumber n = some r) (hacc : r.access = .readWrite)
    (hv : v < 2 ^ r.width s.params) : hostWr n v s = .next (s.writeReg r v) := by
  have hcmd : r ≠ .cmd := by
    rintro rfl
    cases hacc
  simp [hostWr, hr, hacc, Nat.not_le.2 hv, hcmd]

/-! ### The operation that carries an instruction's bytes -/

variable {i : Instr} (s : State)

/-- Writing a command's word to CMD runs it (R86, R146). -/
theorem hostWr_cmd_encode (h : i.format = .cmd8) : hostWr 0x00 (natOfBytes (encode i)) s = exec i s := by
  obtain ⟨hwf, c, hc, _⟩ := encode_command h
  have hdec : decode .cmd8 [c] = .ok i := by
    rw [← h, ← hc]
    exact decodeOfEncode i hwf
  rw [hc, natOfBytes_singleton, hostWr_cmd, issueCommand_of_decode hdec]

/-- Writing a code to H_ET is what the code's row means (R88, R141). -/
theorem hostWr_hEt_encode (h : i.format = .etype16) : hostWr 0x0A (natOfBytes (encode i)) s = exec i s := by
  cases i with
  | etypeIpv6 => exact hostWr_writeReg rfl rfl (natOfBytes_lt [0x86#8, 0xDD#8])
  | etypeUnknown raw =>
    have hraw : natOfBytes (encode (.etypeUnknown raw)) = raw.toNat := by
      rw [encode, ← be16_toNat, be16_hi8_lo8]
    rw [hraw]
    exact hostWr_writeReg rfl rfl raw.isLt
  | _ => cases h

/-- Writing a header image to HWIRE is what the header's row means (R80, R141). -/
theorem hostWr_hwire_encode (h : i.format = .wire112) : hostWr 0x0E (natOfBytes (encode i)) s = exec i s := by
  cases i with
  | eth2Header dst src et =>
    have hlt := natOfBytes_lt (hdrPack ⟨dst, src, et⟩)
    rw [hdrPack_length, show 256 ^ 14 = 2 ^ 112 from rfl] at hlt
    exact hostWr_writeReg rfl rfl hlt
  | _ => cases h

/-- Storing a frame's bytes at SRC_BASE is what the frame's row means (R81, R143). -/
theorem hostMw_encode (h : i.format = .wireFrame) : hostMw s.srcBase (encode i) s = exec i s := by
  cases i with
  | eth2Frame => rfl
  | _ => cases h

/-! ### Opcode-table words -/

/-- The lengths the opcode table gives the rows of each format (R80, R81, R85, R88). -/
theorem formatOfBits_some {nbits : Nat} {f : Format} (h : formatOfBits nbits = some f) :
    (f = .cmd8 ∧ nbits = 8) ∨ (f = .etype16 ∧ nbits = 16) ∨ (f = .wire112 ∧ nbits = 112) ∨
      (f = .wireFrame ∧ 112 < nbits) := by
  unfold formatOfBits at h
  split_ifs at h with h8 h16 h112 hframe
  · exact .inl ⟨(Option.some.inj h).symm, h8⟩
  · exact .inr (.inl ⟨(Option.some.inj h).symm, h16⟩)
  · exact .inr (.inr (.inl ⟨(Option.some.inj h).symm, h112⟩))
  · exact .inr (.inr (.inr ⟨(Option.some.inj h).symm, hframe.1⟩))

/-- A word of whole bytes that is no longer than a header is the number its bytes spell (R52, R80). -/
theorem natOfBytes_tableBytes {n w : Nat} (hw : w < 2 ^ (8 * n)) (hn : n ≤ 14) :
    natOfBytes (tableBytes (8 * n) w) = w := by
  have hpow : 256 ^ n = 2 ^ (8 * n) := (Nat.pow_mul 2 8 n).symm
  rw [tableBytes, if_pos (by omega), Nat.mul_div_cancel_left n (by decide), natOfBytes_bytesOfNat, hpow,
    Nat.mod_eq_of_lt hw]

/-- A word longer than a header image is stored at SRC_BASE (log entry 6). -/
theorem carryWord_frame {nbits : Nat} (h : 112 < nbits) (w : Nat) :
    carryWord s nbits w = .mw s.srcBase (tableBytes nbits w) := by
  rw [carryWord, if_neg (by omega), if_neg (by omega), if_neg (by omega)]

theorem eq_ok_of_toOption {ε α : Type} {x : Except ε α} {a : α} (h : x.toOption = some a) : x = .ok a := by
  cases x with
  | ok => exact congrArg Except.ok (Option.some.inj h)
  | error => cases h

/-- What a table word decodes to is an instruction of the format its length tells, and its bytes are the word's. -/
theorem decodeTableWord_some {nbits w : Nat} (h : decodeTableWord nbits w = some i) :
    w < 2 ^ nbits ∧ formatOfBits nbits = some i.format ∧ encode i = tableBytes nbits w := by
  unfold decodeTableWord at h
  split at h
  next hw =>
    split at h
    next f hf =>
      obtain ⟨_, rfl, henc⟩ := encodeOfDecode _ _ _ (eq_ok_of_toOption h)
      exact ⟨hw, hf, henc⟩
    next => cases h
  next => cases h

end Sys2Proof.Machine

open Sys2Proof Sys2Proof.Machine

/-- Settles O4: no instruction encodes to a reserved word, so none is decoded from it. -/
theorem reservedCommandRefused : Obligations.ReservedCommandRefused := by
  intro s rest c hscript hc
  rw [step_cons hscript]
  exact (hostWr_cmd c _).trans (issueCommand_reserved hc _)

/-- Settles O6: CMD issues the word it is given, and what the word decodes to is well-formed. -/
theorem stepRunsCommand : Obligations.StepRunsCommand := by
  intro s rest c i hscript hdec
  obtain ⟨hwf, _, _⟩ := encodeOfDecode _ _ _ hdec
  refine ⟨hwf, ?_⟩
  rw [step_cons hscript]
  exact (hostWr_cmd c _).trans (issueCommand_of_decode hdec _)

/-- Settles O7: a mnemonic's expansion writes the command's encoding to CMD. -/
theorem mnemonicRunsCommand : Obligations.MnemonicRunsCommand := by
  intro s rest i hformat hscript
  rw [step_cons hscript]
  exact hostWr_cmd_encode _ hformat

/-- Settles O5: the word's bytes are the instruction's encoding, and each format's carrying operation on them is what
the instruction means. -/
theorem fetchedWordRuns : Obligations.FetchedWordRuns := by
  intro s nbits w i h
  obtain ⟨hw, hbits, henc⟩ := decodeTableWord_some h
  rw [step_withFetchWord]
  obtain ⟨hf, rfl⟩ | ⟨hf, rfl⟩ | ⟨hf, rfl⟩ | ⟨hf, hlong⟩ := formatOfBits_some hbits
  · rw [← hostWr_cmd_encode s hf, henc, natOfBytes_tableBytes (n := 1) hw (by decide)]
    rfl
  · rw [← hostWr_hEt_encode s hf, henc, natOfBytes_tableBytes (n := 2) hw (by decide)]
    rfl
  · rw [← hostWr_hwire_encode s hf, henc, natOfBytes_tableBytes (n := 14) hw (by decide)]
    rfl
  · rw [← hostMw_encode s hf, henc, carryWord_frame s hlong]
    rfl

end

section
/-! SUPPORT. What the wire-format rows change (R80, R81, R141, R143; log entry 5). -/

namespace Sys2Proof.Machine

/-- A header's row loads HWIRE with the fields end to end (R30, R80). -/
theorem exec_eth2Header (dst src : Mac) (et : EtCode) (s : State) :
    exec (.eth2Header dst src et) s = .next (s.setHwire (dst ++ src ++ et)) :=
  congrArg (fun w => Host.Outcome.next (s.setHwire w)) (wireImage_hdrPack ⟨dst, src, et⟩)

/-- `MW` to a well-formed range stores the bytes (R143). -/
theorem hostMw_stores {addr : Nat} {b : List Byte} {s : State} (h : wellFormedRange s.params addr b.length = true) :
    hostMw addr b s = .next (s.setMem (s.mem.writeN addr b)) := by
  simp only [hostMw, h, if_true]

/-- What `MW` to a well-formed range leaves: the bytes at its address, and everything else as before (R143). -/
theorem hostMw_fills {addr : Nat} {b : List Byte} {s : State} (h : wellFormedRange s.params addr b.length = true) :
    ∃ t, hostMw addr b s = .next t ∧ t.mem.readN addr b.length = b ∧ s.mem.SameOutside t.mem addr b.length ∧
      t = { s with mem := t.mem } :=
  ⟨_, hostMw_stores h, Memory.readN_writeN .., fun a ha => Memory.read_writeN_outside _ _ _ a ha, rfl⟩

/-- `MW` to an ill-formed range is refused (R143). -/
theorem hostMw_badDescriptor {addr : Nat} {b : List Byte} {s : State}
    (h : wellFormedRange s.params addr b.length = false) : hostMw addr b s = .refused .badDescriptor := by
  simp [hostMw, h]

end Sys2Proof.Machine

open Sys2Proof Sys2Proof.Machine

/-- Settles O43: each row is a register write of its datum. -/
theorem wireDatumLoadsRegister : Obligations.WireDatumLoadsRegister :=
  ⟨exec_eth2Header, exec_etypeIpv6, exec_etypeUnknown⟩

/-- Settles O44: the row is `MW` of the frame's bytes at SRC_BASE. -/
theorem frameDatumFillsSource : Obligations.FrameDatumFillsSource := by
  intro dst src et payload s
  have hrow : exec (.eth2Frame dst src et payload) s = hostMw s.srcBase (hdrPack ⟨dst, src, et⟩ ++ payload) s :=
    (hostMw_encode s rfl).symm
  have hlen : 14 + payload.length = (hdrPack ⟨dst, src, et⟩ ++ payload).length := by simp
  rw [hrow, hlen]
  exact ⟨hostMw_badDescriptor, hostMw_fills⟩

end

section
/-! SUPPORT. No command looks at the table of known codes (R88). -/

namespace Sys2Proof.Machine

/-- A state with another table of known codes. -/
def State.setKnownEt (s : State) (table : List KnownEt) : State :=
  { s with params := { s.params with knownEt := table } }

/-- Where a guard asks the same of two states, a command's answers agree once both branches' do. -/
theorem mapNext_guard {f : State → State} {p : Prop} [Decidable p] {x y x' y' : Result} (hx : x' = mapNext f x)
    (hy : y' = mapNext f y) : (if p then x' else y') = mapNext f (if p then x else y) := by
  rw [hx, hy, apply_ite (mapNext f)]

end Sys2Proof.Machine

open Sys2Proof Sys2Proof.Machine

/-- Settles O16: each guard asks the same of both states, and each branch's answer passes the table on. -/
theorem knownSetChangesNoCommand : Obligations.KnownSetChangesNoCommand := by
  intro i s table hformat
  show exec i (s.setKnownEt table) = mapNext (State.setKnownEt · table) (exec i s)
  cases i with
  | eth2Header | eth2Frame | etypeIpv6 | etypeUnknown => cases hformat
  | hdec14 | henc14 | flen | olen => rfl
  | hdec | henc | fdec | oenc | toown => exact mapNext_guard rfl (mapNext_guard rfl rfl)
  | odec => exact mapNext_guard rfl (mapNext_guard rfl (mapNext_guard rfl rfl))
  | fenc => exact mapNext_guard rfl (mapNext_guard rfl (mapNext_guard rfl (mapNext_guard rfl rfl)))

end

section
/-! SUPPORT. The field types: a MAC address's bytes, and an EtherType code through the table and back (R101, R103 to
R107). -/

namespace Sys2Proof

/-- Byte `k` of an encoded MAC address is bits 47-8k to 40-8k (R101). -/
theorem macEncode_getElem? (a : Mac) {k : Nat} (hk : k < 6) :
    (macEncode a)[k]? = some (a.extractLsb' (40 - 8 * k) 8) := by
  rw [macEncode, List.getElem?_map, List.getElem?_range hk, Option.map_some]

namespace Machine

/-- A known identifier's code is its row's (R105). -/
theorem etEncode_known (p : Params) (id : Nat) : etEncode p (.known id) = (p.knownEt.map KnownEt.code)[id]? := rfl

/-- A raw value's code is the value itself (R105). -/
theorem etEncode_unknown (p : Params) (raw : EtCode) : etEncode p (.unknown raw) = some raw := rfl

/-- A code in the table decodes to the identifier of a row that holds it, whether or not the codes are distinct (R103). -/
theorem etDecode_of_mem {p : Params} {c : EtCode} (h : c ∈ p.knownEt.map KnownEt.code) :
    ∃ id, etDecode p c = .known id ∧ etEncode p (.known id) = some c := by
  have hfound : ((p.knownEt.map KnownEt.code).findIdx? (fun k => k == c)).isSome := by
    rw [List.findIdx?_isSome]
    exact List.any_eq_true.2 ⟨c, h, beq_self_eq_true c⟩
  obtain ⟨id, hfind⟩ := Option.isSome_iff_exists.1 hfound
  obtain ⟨hid, hc, _⟩ := List.findIdx?_eq_some_iff_getElem.1 hfind
  refine ⟨id, by simp only [etDecode, hfind], ?_⟩
  rw [etEncode_known, List.getElem?_eq_getElem hid, eq_of_beq hc]

end Machine

end Sys2Proof

open Sys2Proof Sys2Proof.Machine

/-- Settles O9: the bytes are the slices, and the two inverse laws are those of the number the six bytes spell. -/
theorem macCodecInverse : Obligations.MacCodecInverse :=
  ⟨fun a _ hk => macEncode_getElem? a hk, fun a => ⟨macEncode_length a, macDecode_macEncode a⟩,
    fun _ hm => macEncode_macDecode hm⟩

/-- Settles O12: a code in the table goes to a row that holds it and back; any other is its own raw value. -/
theorem etherTypeFidelity : Obligations.EtherTypeFidelity := by
  intro p c
  by_cases hc : c ∈ p.knownEt.map KnownEt.code
  · obtain ⟨id, hdec, henc⟩ := etDecode_of_mem hc
    rw [hdec, henc]
  · rw [etDecode_of_not_mem hc, etEncode_unknown]

/-- Settles O13: an identifier below K has its row's code, which no earlier row holds; a raw value survives unless the
table holds it. -/
theorem etherTypeDecodeOfEncode : Obligations.EtherTypeDecodeOfEncode := by
  intro p hp
  refine ⟨fun id hid => ?_, etEncode_unknown p, fun _ hraw => etDecode_of_not_mem hraw, fun raw hraw => ?_⟩
  · have hrow := List.getElem?_eq_getElem (l := p.knownEt.map KnownEt.code) (i := id) (by simpa using hid)
    exact ⟨_, hrow, etDecode_of_row hp hrow⟩
  · obtain ⟨id, hdec, _⟩ := etDecode_of_mem hraw
    exact ⟨id, hdec⟩

/-- Settles O14: the code has a row named IPv6, and decodes to that row's identifier. -/
theorem ipv6CodeIsKnown : Obligations.Ipv6CodeIsKnown := by
  intro p hp
  obtain ⟨id, hrow, hname⟩ := exists_ipv6_row hp
  exact ⟨id, etDecode_of_row hp hrow, hname⟩

end

section
/-! SUPPORT. What the header codec's commands answer, and that each undoes the other (R112 to R118). -/

namespace Sys2Proof.Machine

variable {s t : State}

/-- HDEC14 decodes the three fields of HWIRE (R80, R113). -/
theorem execHdec14_eq (s : State) :
    execHdec14 s = .next (((s.setHeader ⟨s.hwire.extractLsb' 64 48, s.hwire.extractLsb' 16 48,
      s.hwire.extractLsb' 0 16⟩).setResLen 14).setStatus 0#8) := by
  rw [execHdec14, headerLayout.2, complete_eq]

/-- HENC14 puts the header's fields end to end in HWIRE (R80, R114). -/
theorem execHenc14_eq (s : State) :
    execHenc14 s = .next (((s.setHwire (s.hDst ++ s.hSrc ++ s.hEt)).setResLen 14).setStatus 0#8) := by
  rw [execHenc14, wireImage_hdrPack, complete_eq]
  rfl

/-- HENC with an ill-formed destination is refused (R116). -/
theorem execHenc_badDescriptor (h : s.dstOk = false) : execHenc s = .refused .badDescriptor :=
  refused_of_descriptor_check h

/-- HENC of a well-formed destination of 14 bytes or more stores the packed header at its base (R116). -/
theorem execHenc_stores (hdst : s.dstOk = true) (hcap : 14 ≤ s.dstCap) :
    execHenc s = .next (((s.setMem (s.mem.writeN s.dstBase (hdrPack s.header))).setResLen 14).setStatus 0#8) := by
  simp [execHenc, hdst, Nat.not_lt.2 hcap]

/-- A packed header stored at an address is read back as 14 bytes. -/
theorem Memory.readN_writeN_hdrPack (m : Memory) (addr : Nat) (h : Header) :
    (m.writeN addr (hdrPack h)).readN addr 14 = hdrPack h := by
  simpa using m.readN_writeN addr (hdrPack h)

/-- Storing a packed header leaves every byte of M but its 14 as it was. -/
theorem Memory.sameOutside_writeN_hdrPack (m : Memory) (addr : Nat) (h : Header) :
    m.SameOutside (m.writeN addr (hdrPack h)) addr 14 := by
  intro a ha
  exact m.read_writeN_outside addr (hdrPack h) a (by simpa using ha)

/-- Storing and completing leave everything but M, RES_LEN and STATUS as it was, whatever the memory stored. -/
theorem State.frame_of_setMem_completed {m : Memory} {n : Nat} (h : t = ((s.setMem m).setResLen n).setStatus 0#8) :
    t = { s with mem := t.mem, resLen := n, status := 0#8 } := by
  subst h
  rfl

/-- The header a completed HDEC leaves packs to the 14 bytes at SRC_BASE (R115). -/
theorem execHdec_completed_hdrPack (h : execHdec s = .next t) (hok : t.status = 0#8) :
    hdrPack t.header = s.mem.readN s.srcBase 14 := by
  obtain ⟨_, _, rfl⟩ := execHdec_completed h hok
  exact s.hdrPack_headerAt s.srcBase

/-- The 14 bytes a completed HENC leaves at DST_BASE are the packed header (R116). -/
theorem execHenc_completed_readN (h : execHenc s = .next t) (hok : t.status = 0#8) :
    t.mem.readN s.dstBase 14 = hdrPack s.header := by
  obtain ⟨_, _, rfl⟩ := execHenc_completed h hok
  exact s.mem.readN_writeN_hdrPack s.dstBase s.header

end Sys2Proof.Machine

open Sys2Proof Sys2Proof.Machine

/-- Settles O10: the bytes and the header are each put together again from the other, and the image is the number the
bytes spell. -/
theorem headerRoundTrip : Obligations.HeaderRoundTrip :=
  ⟨fun _ hb => hdrPack_hdrUnpack hb, hdrUnpack_hdrPack, wireImage_hdrPack⟩

/-- Settles O21: unpacking HWIRE's bytes gives its three fields. -/
theorem hdec14Result : Obligations.Hdec14Result := execHdec14_eq

/-- Settles O22: the image is the fields end to end, so slicing it gives the fields back, and the slices of HWIRE put
end to end are HWIRE. -/
theorem henc14Result : Obligations.Henc14Result := by
  intro s
  refine ⟨execHenc14_eq s, ⟨_, _, execHdec14_eq s, execHenc14_eq _, wire_eq_fields s.hwire⟩,
    _, _, execHenc14_eq s, rfl, ?_⟩
  calc hdrUnpack (wireBytes (s.hDst ++ s.hSrc ++ s.hEt))
    _ = hdrUnpack (hdrPack s.header) := congrArg hdrUnpack (wireBytes_eq_hdrPack s.header)
    _ = s.header := hdrUnpack_hdrPack s.header

/-- Settles O23: the guards in the order of the rule, then the header read at SRC_BASE. -/
theorem hdecResult : Obligations.HdecResult := fun s =>
  ⟨execHdec_badDescriptor, execHdec_tooShort, fun hsrc hlen =>
    ⟨_, execHdec_decodes hsrc hlen, s.hdrPack_headerAt s.srcBase, rfl⟩⟩

/-- Settles O24: the guards in the order of the rule, then the packed header stored at DST_BASE. -/
theorem hencResult : Obligations.HencResult := fun s =>
  ⟨execHenc_badDescriptor, execHenc_bufferTooShort, fun hdst hcap =>
    ⟨_, execHenc_stores hdst hcap, s.mem.readN_writeN_hdrPack s.dstBase s.header,
      s.mem.sameOutside_writeN_hdrPack s.dstBase s.header, State.frame_of_setMem_completed rfl⟩⟩

/-- Settles O25: HENC stores the packed header, and the header HDEC leaves packs to the bytes it read. -/
theorem hdecHencCopiesHeader : Obligations.HdecHencCopiesHeader := by
  intro s t t' u hdec ht hkept henc hu
  calc u.mem.readN t'.dstBase 14
    _ = hdrPack t'.header := execHenc_completed_readN henc hu
    _ = hdrPack t.header := by rw [hkept]
    _ = s.mem.readN s.srcBase 14 := execHdec_completed_hdrPack hdec ht

end

section
/-! SUPPORT. What the borrowed frame codec's commands answer, and the frame a decode leaves (R121 to R123). -/

namespace Sys2Proof.Machine

variable {s t : State}

/-! ### FENC, branch by branch -/

/-- FENC between well-formed ranges that do not meet raises BufferTooShort where the frame does not fit (R122). -/
theorem execFenc_bufferTooShort (hdst : s.dstOk = true) (hpay : s.payOk = true) (hmeet : s.payMeetsDst = false)
    (hcap : s.dstCap < 14 + s.payLen) : execFenc s = .next (s.setStatus Condition.bufferTooShort.code) := by
  simp [execFenc, hdst, hpay, hmeet, hcap]

/-- FENC between well-formed ranges that do not meet stores the frame where it fits (R122). -/
theorem execFenc_stores (hdst : s.dstOk = true) (hpay : s.payOk = true) (hmeet : s.payMeetsDst = false)
    (hcap : 14 + s.payLen ≤ s.dstCap) :
    execFenc s = .next (((s.storeFrame s.payload).setResLen (14 + s.payLen)).setStatus 0#8) := by
  simp [execFenc, hdst, hpay, hmeet, Nat.not_lt.2 hcap]

/-- Storing a frame leaves every byte of M but the frame's as it was (R58). -/
theorem State.sameOutside_storeFrame (s : State) (b : List Byte) :
    s.mem.SameOutside (s.storeFrame b).mem s.dstBase (14 + b.length) := fun _ hout =>
  Decidable.by_contra fun hne => hout (State.mem_range_of_storeFrame_ne hne)

/-! ### A completed FDEC -/

/-- The frame a completed FDEC leaves is as long as its source, and RES_LEN says so (R121). -/
theorem execFdec_completed_length (h : execFdec s = .next t) (hok : t.status = 0#8) :
    14 + t.payLen = s.srcLen ∧ t.resLen = s.srcLen := by
  obtain ⟨_, hlen, rfl⟩ := execFdec_completed h hok
  exact ⟨Nat.add_sub_cancel' (Nat.le_of_lt hlen), rfl⟩

/-- The header a completed FDEC leaves packs to the 14 bytes at SRC_BASE (R121). -/
theorem execFdec_completed_hdrPack (h : execFdec s = .next t) (hok : t.status = 0#8) :
    hdrPack t.header = s.mem.readN s.srcBase 14 := by
  obtain ⟨_, _, rfl⟩ := execFdec_completed h hok
  exact s.hdrPack_headerAt s.srcBase

/-- The image of the frame a completed FDEC leaves is the source range as FDEC found it (R120, R121). -/
theorem execFdec_completed_readN (h : execFdec s = .next t) (hok : t.status = 0#8) :
    hdrPack t.header ++ s.mem.readN t.payBase t.payLen = s.mem.readN s.srcBase s.srcLen := by
  obtain ⟨hsum, _⟩ := execFdec_completed_length h hok
  obtain ⟨_, hbase, _⟩ := execFdec_completed_payload h hok
  rw [execFdec_completed_hdrPack h hok, hbase, ← Memory.readN_add, hsum]

/-- A completed FDEC leaves every field but the header register, the payload descriptor, RES_LEN and STATUS as it was
(R121). -/
theorem execFdec_completed_frame (h : execFdec s = .next t) (hok : t.status = 0#8) :
    t = { s with hDst := t.hDst, hSrc := t.hSrc, hEt := t.hEt, payBase := s.srcBase + 14, payLen := s.srcLen - 14,
                 resLen := s.srcLen, status := 0#8 } := by
  obtain ⟨_, _, rfl⟩ := execFdec_completed h hok
  simp [State.ext_iff]

end Sys2Proof.Machine

open Sys2Proof Sys2Proof.Machine

/-- Settles O27: the guards in the order of the rule, then the header read at SRC_BASE. -/
theorem fdecResult : Obligations.FdecResult := by
  intro s
  refine ⟨execFdec_badDescriptor, execFdec_noBody, fun hsrc hlen => ?_⟩
  have hdecodes := execFdec_decodes hsrc hlen
  exact ⟨_, hdecodes, execFdec_completed_hdrPack hdecodes rfl, execFdec_completed_frame hdecodes rfl⟩

/-- Settles O29: the guards in the order of the rule, then the header and the payload stored at DST_BASE. -/
theorem fencResult : Obligations.FencResult := by
  intro s
  refine ⟨fun hdst => ?_, fun _ hpay => ?_, fun hdst hpay => (execFenc_overlap_iff hdst hpay).2,
    execFenc_bufferTooShort, fun hdst hpay hmeet hcap => ?_⟩
  · exact illFormedDescriptorRefused .fenc s rfl (Bool.and_eq_false_iff.2 (.inl hdst))
  · exact illFormedDescriptorRefused .fenc s rfl (Bool.and_eq_false_iff.2 (.inr hpay))
  · have hstores := execFenc_stores hdst hpay hmeet hcap
    have hframe := s.sameOutside_storeFrame s.payload
    rw [State.payload_length] at hframe
    exact ⟨_, hstores, execFenc_completed_readN hstores rfl, hframe, rfl⟩

/-- Settles O31: FLEN has no guard. -/
theorem flenResult : Obligations.FlenResult := fun s => complete_eq (14 + s.payLen) s

/-- Settles O32: FENC stores the image of the frame it is given, which is the one FDEC read from the source. -/
theorem borrowedFrameRoundTrip : Obligations.BorrowedFrameRoundTrip := by
  intro s t t' u hfdec ht hheader hbase hlen hpayload hfenc hu
  obtain ⟨hsum, _⟩ := execFdec_completed_length hfdec ht
  have hsum' : 14 + t'.payLen = s.srcLen := by rw [hlen, hsum]
  constructor
  · calc u.mem.readN t'.dstBase s.srcLen
      _ = u.mem.readN t'.dstBase (14 + t'.payLen) := by rw [hsum']
      _ = hdrPack t'.header ++ t'.mem.readN t'.payBase t'.payLen := execFenc_completed_readN hfenc hu
      _ = hdrPack t.header ++ s.mem.readN t.payBase t.payLen := by rw [hheader, hbase, hlen, hpayload]
      _ = s.mem.readN s.srcBase s.srcLen := execFdec_completed_readN hfdec ht
  · obtain ⟨_, _, _, rfl⟩ := execFenc_completed hfenc hu
    exact hsum'

/-- Settles O33: FLEN writes the RES_LEN and the STATUS that FDEC left. -/
theorem flenAfterFdec : Obligations.FlenAfterFdec := by
  intro s t hfdec hok
  obtain ⟨hsum, hres⟩ := execFdec_completed_length hfdec hok
  have hflen : exec .flen t = .next ((t.setResLen t.resLen).setStatus t.status) := by
    rw [hres, hok, ← hsum]
    exact flenResult t
  exact ⟨t, hflen, hres, rfl⟩

end

section
/-! SUPPORT. The empty payload: no check refuses it, and its frame is the header alone (R60, R63, R127). -/

namespace Sys2Proof.Machine

variable {s t : State}

/-- The first `n` bytes of a well-formed range are a well-formed range (R60). -/
theorem wellFormedRange_take {p : Params} {base len n : Nat} (h : wellFormedRange p base len = true) (hn : n ≤ len) :
    wellFormedRange p base n = true := by
  obtain h0 | ⟨hend, hall⟩ := wellFormedRange_iff.1 h
  · exact wellFormedRange_iff.2 (.inl (by omega))
  · exact wellFormedRange_iff.2 (.inr ⟨by omega, fun a hbase ha => hall a hbase (by omega)⟩)

theorem State.payOk_of_payLen_zero (h : s.payLen = 0) : s.payOk = true := by
  rw [State.payOk, h, wellFormedRange_zero]

/-- An empty payload has no address to share with the destination (R63). -/
theorem State.payMeetsDst_of_payLen_zero (h : s.payLen = 0) : s.payMeetsDst = false := by
  simp [State.payMeetsDst, rangesMeet, h]

theorem State.payload_of_payLen_zero (h : s.payLen = 0) : s.payload = [] :=
  List.eq_nil_of_length_eq_zero (s.payload_length.trans h)

/-- TOOWN of a well-formed payload within OWN_CAP copies it (R133). -/
theorem execToown_copies (hpay : s.payOk = true) (hcap : s.payLen ≤ s.params.ownCap) :
    execToown s = .next ((s.setOwn s.payload).setStatus 0#8) := by
  simp [execToown, hpay, Nat.not_lt.2 hcap]

/-- FDEC of the first 14 bytes a completed FENC stored raises NoBody: they lie in its destination (R121, R127). -/
theorem execFdec_of_execFenc_header (h : execFenc s = .next t) (hok : t.status = 0#8) :
    execFdec { t with srcBase := s.dstBase, srcLen := 14 } =
      .next { t with srcBase := s.dstBase, srcLen := 14, status := 2#8 } := by
  have hsrc : wellFormedRange t.params s.dstBase 14 = true := by
    obtain ⟨hdst, _, hcap, rfl⟩ := execFenc_completed h hok
    exact wellFormedRange_take hdst (by omega)
  exact execFdec_noBody hsrc (Nat.le_refl 14)

end Sys2Proof.Machine

open Sys2Proof Sys2Proof.Machine

/-- Settles O34: FDEC completes only past its guard, so with a payload byte; an empty payload passes every other check,
and the 14 bytes FENC writes lie in its well-formed destination, where FDEC's guard stops. -/
theorem emptyPayloadAsymmetry : Obligations.EmptyPayloadAsymmetry := by
  refine ⟨fun s t hfdec hok => ?_, fun s hzero => ⟨?flen, ?toown, fun hdst hcap => ?fenc⟩⟩
  · obtain ⟨_, hlen, rfl⟩ := execFdec_completed hfdec hok
    exact Nat.sub_pos_of_lt hlen
  case flen => exact ⟨_, flenResult s, by rw [hzero]⟩
  case toown =>
    have hcap : s.payLen ≤ s.params.ownCap := by omega
    exact ⟨_, execToown_copies (State.payOk_of_payLen_zero hzero) hcap, State.payload_of_payLen_zero hzero⟩
  case fenc =>
    obtain ⟨_, _, _, _, hstores⟩ := fencResult s
    obtain ⟨t, hfenc, hread, hframe, ht⟩ := hstores hdst (State.payOk_of_payLen_zero hzero)
      (State.payMeetsDst_of_payLen_zero hzero) (by omega)
    have hempty : s.mem.readN s.payBase s.payLen = [] := State.payload_of_payLen_zero hzero
    rw [hempty, List.append_nil, hzero] at hread
    rw [hzero] at hframe
    have hres : t.resLen = 14 := by rw [ht, hzero]
    have hok : t.status = 0#8 := by rw [ht]
    exact ⟨t, hfenc, hres, hok, hread, hframe, execFdec_of_execFenc_header hfenc hok⟩

end

section
/-! SUPPORT. What the owned frame codec's commands answer, the frame a copy leaves, and the two decodes beside each other
(R131 to R137). -/

namespace Sys2Proof.Machine

variable {s t : State}

/-! ### ODEC, OENC and TOOWN, branch by branch -/

/-- ODEC with an ill-formed source is refused (R131). -/
theorem execOdec_badDescriptor (h : s.srcOk = false) : execOdec s = .refused .badDescriptor :=
  refused_of_descriptor_check h

/-- ODEC of a well-formed source whose payload is above OWN_CAP is refused (R131). -/
theorem execOdec_ownCapacity (hsrc : s.srcOk = true) (hlen : 14 < s.srcLen)
    (hown : s.params.ownCap < s.srcLen - 14) : execOdec s = .refused .ownCapacity := by
  simp [execOdec, hsrc, hlen, hown]

/-- ODEC of a well-formed source of 14 bytes or fewer raises NoBody: it has no payload to hold against OWN_CAP (R131). -/
theorem execOdec_noBody (hsrc : s.srcOk = true) (hlen : s.srcLen ≤ 14) :
    execOdec s = .next (s.setStatus Condition.noBody.code) := by
  simp [execOdec, hsrc, hlen, Nat.not_lt.2 hlen]

/-- ODEC of a well-formed source whose payload fits OWN decodes the header and copies the rest (R131). -/
theorem execOdec_decodes (hsrc : s.srcOk = true) (hlen : 14 < s.srcLen) (hown : s.srcLen - 14 ≤ s.params.ownCap) :
    execOdec s = .next ((((s.setHeader (s.headerAt s.srcBase)).setOwn
      (s.mem.readN (s.srcBase + 14) (s.srcLen - 14))).setResLen s.srcLen).setStatus 0#8) := by
  simp [execOdec, hsrc, Nat.not_lt.2 hown, Nat.not_le.2 hlen]

/-- OENC with an ill-formed destination is refused (R132). -/
theorem execOenc_badDescriptor (h : s.dstOk = false) : execOenc s = .refused .badDescriptor :=
  refused_of_descriptor_check h

/-- OENC of a well-formed destination raises BufferTooShort where the frame does not fit (R132). -/
theorem execOenc_bufferTooShort (hdst : s.dstOk = true) (hcap : s.dstCap < 14 + s.own.length) :
    execOenc s = .next (s.setStatus Condition.bufferTooShort.code) := by
  simp [execOenc, hdst, hcap]

/-- OENC of a well-formed destination stores the frame where it fits (R132). -/
theorem execOenc_stores (hdst : s.dstOk = true) (hcap : 14 + s.own.length ≤ s.dstCap) :
    execOenc s = .next (((s.storeFrame s.own).setResLen (14 + s.own.length)).setStatus 0#8) := by
  simp [execOenc, hdst, Nat.not_lt.2 hcap]

/-- TOOWN with an ill-formed payload is refused (R133). -/
theorem execToown_badDescriptor (h : s.payOk = false) : execToown s = .refused .badDescriptor :=
  refused_of_descriptor_check h

/-- TOOWN of a well-formed payload above OWN_CAP is refused (R133). -/
theorem execToown_ownCapacity (hpay : s.payOk = true) (hown : s.params.ownCap < s.payLen) :
    execToown s = .refused .ownCapacity := by
  simp [execToown, hpay, hown]

/-! ### A completed ODEC, a completed OENC -/

/-- The frame a completed ODEC leaves is as long as its source (R131). -/
theorem execOdec_completed_length (h : execOdec s = .next t) (hok : t.status = 0#8) :
    14 + t.own.length = s.srcLen := by
  obtain ⟨_, hlen, _, rfl⟩ := execOdec_completed h hok
  simpa using Nat.add_sub_cancel' (Nat.le_of_lt hlen)

/-- The image of the frame a completed ODEC leaves is the source range as ODEC found it (R130, R131). -/
theorem execOdec_completed_image (h : execOdec s = .next t) (hok : t.status = 0#8) :
    hdrPack t.header ++ t.own = s.mem.readN s.srcBase s.srcLen := by
  obtain ⟨_, hlen, _, rfl⟩ := execOdec_completed h hok
  calc hdrPack (s.headerAt s.srcBase) ++ s.mem.readN (s.srcBase + 14) (s.srcLen - 14)
    _ = s.mem.readN s.srcBase 14 ++ s.mem.readN (s.srcBase + 14) (s.srcLen - 14) := by rw [s.hdrPack_headerAt]
    _ = s.mem.readN s.srcBase (14 + (s.srcLen - 14)) := (Memory.readN_add ..).symm
    _ = s.mem.readN s.srcBase s.srcLen := by rw [Nat.add_sub_cancel' (Nat.le_of_lt hlen)]

/-- A completed ODEC leaves every field but the header register, OWN, RES_LEN and STATUS as it was (R131). -/
theorem execOdec_completed_frame (h : execOdec s = .next t) (hok : t.status = 0#8) :
    t = { s with hDst := t.hDst, hSrc := t.hSrc, hEt := t.hEt, own := t.own, resLen := s.srcLen, status := 0#8 } := by
  obtain ⟨_, _, _, rfl⟩ := execOdec_completed h hok
  simp [State.ext_iff]

/-- The bytes a completed OENC leaves at DST_BASE are the packed header and OWN (R132). -/
theorem execOenc_completed_readN (h : execOenc s = .next t) (hok : t.status = 0#8) :
    t.mem.readN s.dstBase (14 + s.own.length) = hdrPack s.header ++ s.own := by
  obtain ⟨_, _, rfl⟩ := execOenc_completed h hok
  exact s.readN_storeFrame s.own

/-! ### FDEC, then TOOWN -/

/-- The payload descriptor a completed FDEC leaves is well-formed: it is what is left of the source (R60, R121). -/
theorem execFdec_completed_payOk (h : execFdec s = .next t) (hok : t.status = 0#8) : t.payOk = true := by
  obtain ⟨hsrc, hlen, _⟩ := execFdec_completed h hok
  obtain ⟨hparams, hbase, hpayLen⟩ := execFdec_completed_payload h hok
  rw [State.payOk, hparams, hbase, hpayLen]
  exact wellFormedRange_drop hsrc (Nat.le_of_lt hlen)

/-- The payload a completed FDEC leaves is the source range past its first 14 bytes (R120, R121). -/
theorem execFdec_completed_payload_eq (h : execFdec s = .next t) (hok : t.status = 0#8) :
    t.payload = s.mem.readN (s.srcBase + 14) (s.srcLen - 14) := by
  obtain ⟨_, _, rfl⟩ := execFdec_completed h hok
  simp [State.payload]

/-- TOOWN after a completed FDEC copies the source range past its first 14 bytes, where it fits OWN (R133, R135). -/
theorem execToown_of_execFdec (h : execFdec s = .next t) (hok : t.status = 0#8)
    (hown : s.srcLen - 14 ≤ s.params.ownCap) :
    execToown t = .next ((t.setOwn (s.mem.readN (s.srcBase + 14) (s.srcLen - 14))).setStatus 0#8) := by
  obtain ⟨hparams, _, hpayLen⟩ := execFdec_completed_payload h hok
  rw [← execFdec_completed_payload_eq h hok]
  exact execToown_copies (execFdec_completed_payOk h hok) (by rwa [hparams, hpayLen])

end Sys2Proof.Machine

open Sys2Proof Sys2Proof.Machine

/-- Settles O36: the guards in the order of the rule, then the header read at SRC_BASE and the rest copied. -/
theorem odecResult : Obligations.OdecResult := by
  intro s
  refine ⟨execOdec_badDescriptor, execOdec_ownCapacity, execOdec_noBody, fun hsrc hlen hown => ?_⟩
  have hdecodes := execOdec_decodes hsrc hlen hown
  exact ⟨_, hdecodes, execOdec_completed_image hdecodes rfl, execOdec_completed_frame hdecodes rfl⟩

/-- Settles O37: the guards in the order of the rule, then the header and OWN stored at DST_BASE. -/
theorem oencResult : Obligations.OencResult := by
  intro s
  refine ⟨execOenc_badDescriptor, execOenc_bufferTooShort, fun hdst hcap => ?_⟩
  have hstores := execOenc_stores hdst hcap
  exact ⟨_, hstores, execOenc_completed_readN hstores rfl, s.sameOutside_storeFrame s.own, rfl⟩

/-- Settles O38: the guards in the order of the rule, then the payload copied. -/
theorem toownResult : Obligations.ToownResult := fun _ =>
  ⟨execToown_badDescriptor, execToown_ownCapacity, execToown_copies⟩

/-- Settles O39: OLEN has no guard. -/
theorem olenResult : Obligations.OlenResult := fun s => complete_eq (14 + s.own.length) s

/-- Settles O40: FDEC leaves as its payload descriptor the rest of the source range, which is what ODEC copies; TOOWN
copies through it. -/
theorem ownedBorrowedEquivalence : Obligations.OwnedBorrowedEquivalence := by
  intro s hsrc
  constructor
  · intro hlen hown
    have hfdec := execFdec_decodes hsrc hlen
    have hodec := execOdec_decodes hsrc hlen hown
    have htoown := execToown_of_execFdec hfdec rfl hown
    have hpayload := execFdec_completed_payload_eq hfdec rfl
    exact ⟨_, _, _, hfdec, hodec, htoown, rfl, rfl, rfl, hpayload.symm, by simp [State.ext_iff]⟩
  · intro hlen
    have hfdec := execFdec_noBody hsrc hlen
    exact ⟨(execOdec_noBody hsrc hlen).trans hfdec.symm, _, hfdec, rfl⟩

/-- Settles O41: the host's write changes M alone, and OENC takes the header register and OWN, whichever command filled
them. -/
theorem ownedFrameIndependence : Obligations.OwnedFrameIndependence := by
  intro _ _ t u addr b _ _ hmw
  obtain ⟨_, rfl⟩ := hostMw_next hmw
  exact ⟨rfl, fun v hoenc hv => execOenc_completed_readN hoenc hv⟩

/-- Settles O42: OENC stores the image of the frame it is given, which is the one ODEC copied from the source. -/
theorem ownedFrameRoundTrip : Obligations.OwnedFrameRoundTrip := by
  intro s t t' u hodec ht hheader hown hoenc hu
  have hlen : 14 + t'.own.length = s.srcLen := by rw [hown, execOdec_completed_length hodec ht]
  constructor
  · calc u.mem.readN t'.dstBase s.srcLen
      _ = u.mem.readN t'.dstBase (14 + t'.own.length) := by rw [hlen]
      _ = hdrPack t'.header ++ t'.own := execOenc_completed_readN hoenc hu
      _ = hdrPack t.header ++ t.own := by rw [hheader, hown]
      _ = s.mem.readN s.srcBase s.srcLen := execOdec_completed_image hodec ht
  · obtain ⟨_, _, rfl⟩ := execOenc_completed hoenc hu
    exact hlen

end

section
/-! SUPPORT. A register as the host names, writes and reads it, and what each host operation answers (R90, R141 to
R145). -/

namespace Sys2Proof.Machine

variable (s : State) {r : Reg} {n v : Nat}

/-! ### Register numbers -/

/-- A register's number names that register (R90). -/
@[simp] theorem regOfNumber_number (r : Reg) : regOfNumber r.number = some r := by
  cases r <;> rfl

/-- A number above 0x0E names no register (R21). -/
theorem regOfNumber_unassigned (h : 0x0E < n) : regOfNumber n = none := by
  obtain ⟨k, rfl⟩ := Nat.exists_eq_add_of_lt h
  rw [Nat.add_comm 0x0E k]
  rfl

/-! ### Reading a register after a write -/

/-- Every register but CMD has a value to read (R37, R142). -/
theorem State.exists_readReg (h : r ≠ .cmd) : ∃ v, s.readReg r = some v := by
  cases r with
  | cmd => exact absurd rfl h
  | _ => exact ⟨_, rfl⟩

/-- A register the host may write reads as the value written to it, where that value fits (R141). -/
theorem State.readReg_writeReg_same (hacc : r.access = .readWrite) (hv : v < 2 ^ r.width s.params) :
    (s.writeReg r v).readReg r = some v := by
  cases r with
  | cmd | status | etClass | resLen | ownLen => cases hacc
  | srcBase | srcLen | dstBase | dstCap | payBase | payLen => rfl
  | hDst | hSrc | hEt | hwire => exact congrArg some (Nat.mod_eq_of_lt hv)

/-- Another register reads as before the write, but for ET_CLASS, the view of H_ET (R28, R141). -/
theorem State.readReg_writeReg_other (v : Nat) {q : Reg} (hq : q ≠ r) (hview : ¬(q = .etClass ∧ r = .hEt)) :
    (s.writeReg r v).readReg q = s.readReg q := by
  cases r with
  | cmd | status | etClass | resLen | ownLen => rfl
  | hEt =>
    cases q with
    | hEt => exact absurd rfl hq
    | etClass => exact absurd ⟨rfl, rfl⟩ hview
    | _ => rfl
  | srcBase | srcLen | dstBase | dstCap | payBase | payLen | hDst | hSrc | hwire =>
    cases q <;> simp [State.readReg, State.writeReg, State.etClass, State.ownLen] at hq ⊢

/-- A register write reaches neither OWN, M and the parameters nor the host's script and reply (R141). -/
theorem State.writeReg_frame (r : Reg) (v : Nat) :
    (s.writeReg r v).own = s.own ∧ (s.writeReg r v).mem = s.mem ∧ (s.writeReg r v).params = s.params ∧
      (s.writeReg r v).script = s.script ∧ (s.writeReg r v).reply = s.reply := by
  cases r <;> exact ⟨rfl, rfl, rfl, rfl, rfl⟩

/-! ### WR and RD -/

theorem hostWr_badRegister (v : Nat) (h : 0x0E < n) : hostWr n v s = .refused .badRegister := by
  simp only [hostWr, regOfNumber_unassigned h, refuse_eq]

/-- A write to a read-only register is refused as such whatever the value (R141, log entry 7). -/
theorem hostWr_readOnlyWrite (v : Nat) (h : r.access = .readOnly) :
    hostWr r.number v s = .refused .readOnlyWrite := by
  simp [hostWr, h]

theorem hostWr_valueWidth (hacc : r.access ≠ .readOnly) (hv : 2 ^ r.width s.params ≤ v) :
    hostWr r.number v s = .refused .valueWidth := by
  simp [hostWr, hacc, hv]

theorem hostRd_badRegister (h : 0x0E < n) : hostRd n s = .refused .badRegister := by
  simp only [hostRd, regOfNumber_unassigned h, refuse_eq]

theorem hostRd_value (h : s.readReg r = some v) : hostRd r.number s = .next (s.setReply (.value v)) := by
  simp [hostRd, h]

/-! ### MR, OLOAD and OR -/

variable {addr i : Nat} {b : List Byte}

theorem hostMr_badDescriptor (h : wellFormedRange s.params addr n = false) :
    hostMr addr n s = .refused .badDescriptor := by
  simp [hostMr, h]

theorem hostMr_reads (h : wellFormedRange s.params addr n = true) :
    hostMr addr n s = .next (s.setReply (.bytes (s.mem.readN addr n))) := if_pos h

theorem hostOload_ownCapacity (h : s.params.ownCap < b.length) : hostOload b s = .refused .ownCapacity := if_pos h

theorem hostOload_loads (h : b.length ≤ s.params.ownCap) : hostOload b s = .next (s.setOwn b) :=
  if_neg (Nat.not_lt.2 h)

theorem hostOwnRead_ownIndex (h : s.own.length ≤ i) : hostOwnRead i s = .refused .ownIndex := by
  simp [hostOwnRead, h]

theorem hostOwnRead_reads {x : Byte} (h : s.own[i]? = some x) : hostOwnRead i s = .next (s.setReply (.byte x)) := by
  simp only [hostOwnRead, h]

end Sys2Proof.Machine

open Sys2Proof Sys2Proof.Machine

/-- Settles O55: the guards of WR one by one, then the one register the write reaches. -/
theorem registerWrite : Obligations.RegisterWrite := by
  intro s rest n v hscript
  rw [step_cons hscript]
  refine ⟨hostWr_badRegister _ v, ?_⟩
  rintro r rfl
  refine ⟨fun hacc _ => hostWr_readOnlyWrite _ v hacc, fun hacc _ => .inl (hostWr_readOnlyWrite _ v hacc),
    hostWr_valueWidth (s.setScript rest), fun hacc hv => ?_⟩
  exact ⟨_, hostWr_writeReg (regOfNumber_number r) hacc hv, State.readReg_writeReg_same _ hacc hv,
    fun _ => State.readReg_writeReg_other (s.setScript rest) v, State.writeReg_frame _ r v⟩

/-- Settles O56: every register but CMD has a value, which RD puts into the reply; the views have the value they are
defined by. -/
theorem registerRead : Obligations.RegisterRead := by
  intro s rest n hscript
  rw [step_cons hscript]
  refine ⟨?_, hostRd_badRegister _, ?_, ?_, ?_⟩
  · rintro rfl
    rfl
  · rintro rfl
    exact hostRd_value _ (r := .etClass) rfl
  · rintro rfl
    exact hostRd_value _ (r := .ownLen) rfl
  · rintro r rfl hcmd
    obtain ⟨v, hv⟩ := (s.setScript rest).exists_readReg hcmd
    exact ⟨v, hv, hostRd_value _ hv⟩

/-- Settles O57: each operation's one guard is its range; past it MW fills the range and MR reads it. -/
theorem memoryWriteAndRead : Obligations.MemoryWriteAndRead := by
  constructor
  · intro s rest addr b hscript
    rw [step_cons hscript]
    exact ⟨hostMw_badDescriptor (s := s.setScript rest), hostMw_fills (s := s.setScript rest)⟩
  · intro s rest addr n hscript
    rw [step_cons hscript]
    exact ⟨hostMr_badDescriptor (s.setScript rest), hostMr_reads (s.setScript rest)⟩

/-- Settles O58: OLOAD's one guard is the capacity, OR's the length of OWN. -/
theorem ownedStoreAccess : Obligations.OwnedStoreAccess := by
  constructor
  · intro s rest b hscript
    rw [step_cons hscript]
    exact ⟨hostOload_ownCapacity (s.setScript rest), hostOload_loads (s.setScript rest)⟩
  · intro s rest i hscript
    rw [step_cons hscript]
    exact ⟨hostOwnRead_ownIndex (s.setScript rest), fun _ => hostOwnRead_reads (s.setScript rest)⟩

/-- Settles O59: the access is tested before the width. -/
theorem readOnlyReasonBeforeWidth : Obligations.ReadOnlyReasonBeforeWidth := by
  intro s rest r v hscript hacc _
  rw [step_cons hscript]
  exact hostWr_readOnlyWrite _ v hacc

end

section
/-! SUPPORT. A command that answers a next state has raised its condition or completed, as the table of R155 says; and
no command reads STATUS (R152 to R157). -/

namespace Sys2Proof.Machine

variable {i : Instr} {s t : State}

/-- A command that answers has raised the condition the table gives, writing STATUS alone, or has completed where the
table gives none (R155, R156). -/
theorem exec_raised_or_completed (hformat : i.format = .cmd8) (hx : exec i s = .next t) :
    (∃ c : Condition, statusAfter i s = c.code ∧ t = s.setStatus c.code) ∨
      (statusAfter i s = 0#8 ∧ t.status = 0#8) := by
  cases i with
  | eth2Header | eth2Frame | etypeIpv6 | etypeUnknown => cases hformat
  | hdec14 | henc14 | flen | olen =>
    obtain rfl := next_of_complete hx
    exact .inr ⟨rfl, rfl⟩
  | toown =>
    obtain ⟨_, _, rfl⟩ := execToown_next hx
    exact .inr ⟨rfl, rfl⟩
  | hdec =>
    obtain ⟨_, ⟨hlen, rfl⟩ | ⟨hlen, rfl⟩⟩ := execHdec_next hx
    · exact .inl ⟨.tooShort, if_pos hlen, rfl⟩
    · exact .inr ⟨if_neg (Nat.not_lt.2 hlen), rfl⟩
  | henc =>
    obtain ⟨_, ⟨hcap, rfl⟩ | ⟨hcap, rfl⟩⟩ := execHenc_next hx
    · exact .inl ⟨.bufferTooShort, if_pos hcap, rfl⟩
    · exact .inr ⟨if_neg (Nat.not_lt.2 hcap), rfl⟩
  | fdec =>
    obtain ⟨_, ⟨hlen, rfl⟩ | ⟨hlen, rfl⟩⟩ := execFdec_next hx
    · exact .inl ⟨.noBody, if_pos hlen, rfl⟩
    · exact .inr ⟨if_neg (Nat.not_le.2 hlen), rfl⟩
  | fenc =>
    obtain ⟨_, _, _, ⟨hcap, rfl⟩ | ⟨hcap, rfl⟩⟩ := execFenc_next hx
    · exact .inl ⟨.bufferTooShort, if_pos hcap, rfl⟩
    · exact .inr ⟨if_neg (Nat.not_lt.2 hcap), rfl⟩
  | odec =>
    obtain ⟨_, ⟨hlen, rfl⟩ | ⟨hlen, _, rfl⟩⟩ := execOdec_next hx
    · exact .inl ⟨.noBody, if_pos hlen, rfl⟩
    · exact .inr ⟨if_neg (Nat.not_le.2 hlen), rfl⟩
  | oenc =>
    obtain ⟨_, ⟨hcap, rfl⟩ | ⟨hcap, rfl⟩⟩ := execOenc_next hx
    · exact .inl ⟨.bufferTooShort, if_pos hcap, rfl⟩
    · exact .inr ⟨if_neg (Nat.not_lt.2 hcap), rfl⟩

/-- No command reads STATUS: no guard looks at it, and every answer overwrites it (R157). -/
theorem exec_setStatus (hformat : i.format = .cmd8) (s : State) (v : BitVec 8) :
    exec i (s.setStatus v) = exec i s := by
  cases i with
  | eth2Header | eth2Frame | etypeIpv6 | etypeUnknown => cases hformat
  | _ => rfl

end Sys2Proof.Machine

open Sys2Proof Sys2Proof.Machine

/-- Settles O46: what a command raised is what the table gives, and it completes where the table gives 0. -/
theorem conditionTable : Obligations.ConditionTable := by
  intro i s t hformat hx
  obtain ⟨c, hstatus, rfl⟩ | ⟨hstatus, hok⟩ := exec_raised_or_completed hformat hx
  · exact hstatus.symm
  · rw [hstatus, hok]

/-- Settles O47: with STATUS not 0 the command has raised, and raising writes STATUS alone. -/
theorem conditionChangesStatusOnly : Obligations.ConditionChangesStatusOnly := by
  intro i s t hformat hx hraised
  obtain ⟨c, hstatus, rfl⟩ | ⟨_, hok⟩ := exec_raised_or_completed hformat hx
  · rw [hstatus]
    rfl
  · exact absurd hok hraised

/-- Settles O48: the state a raised condition leaves differs in STATUS, which no command reads. -/
theorem conditionRepeatsAndNeverSticks : Obligations.ConditionRepeatsAndNeverSticks := by
  refine ⟨fun i s t hformat hx hraised => ?_, fun i s v hformat => exec_setStatus hformat s v⟩
  have ht : t = s.setStatus (statusAfter i s) := conditionChangesStatusOnly i s t hformat hx hraised
  calc exec i t
    _ = exec i (s.setStatus (statusAfter i s)) := by rw [← ht]
    _ = exec i s := exec_setStatus hformat s _
    _ = .next t := hx

end

section
/-! SUPPORT. What a command and a host operation can be refused for, said once per operation (R158). -/

namespace Sys2Proof.Machine

variable {s : State} {r : Refusal}

/-! ### Guards -/

/-- At a refusal's guard an operation is refused for its reason, or goes on (R16). -/
theorem refused_of_refuse_guard {p : Prop} [Decidable p] {q : Refusal} {x : Result}
    (h : (if p then refuse q else x) = .refused r) : (p ∧ r = q) ∨ (¬p ∧ x = .refused r) := by
  split at h
  · exact .inl ⟨‹_›, by simpa using h.symm⟩
  · exact .inr ⟨‹_›, h⟩

/-- At a descriptor's check a command is refused for the descriptor, or goes on (R60). -/
theorem refused_of_descriptor_guard {ok : Bool} {x : Result}
    (h : (if !ok then refuse .badDescriptor else x) = .refused r) :
    (ok = false ∧ r = .badDescriptor) ∨ x = .refused r := by
  obtain ⟨hbad, hr⟩ | ⟨_, hx⟩ := refused_of_refuse_guard h
  · exact .inl ⟨by simpa using hbad, hr⟩
  · exact .inr hx

/-- A command that has come to its condition is refused no more: it raises or completes (R159). -/
theorem raise_or_complete_ne_refused {p : Prop} [Decidable p] {c : Condition} {n : Nat} {u : State} :
    (if p then raise c s else complete n u) ≠ .refused r := by
  split <;> simp

/-! ### Commands -/

/-- A command refused for a descriptor of its own is where the list has BadDescriptor (R61, R158). -/
theorem refusalListed_badDescriptor {i : Instr}
    (hi : i ∈ [Instr.hdec, .henc, .fdec, .fenc, .odec, .oenc, .toown]) (hbad : descriptorsOk i s = false) :
    refusalListed s (.wr 0x00 (natOfBytes (encode i))) .badDescriptor :=
  Or.inl ⟨i, hi, rfl, hbad⟩

/-- Every command is refused only where the list has it (R158). -/
theorem exec_refused {i : Instr} (hformat : i.format = .cmd8) (h : exec i s = .refused r) :
    refusalListed s (.wr 0x00 (natOfBytes (encode i))) r := by
  cases i with
  | eth2Header | eth2Frame | etypeIpv6 | etypeUnknown => cases hformat
  | hdec14 | henc14 | flen | olen => cases h
  | hdec | henc | fdec | oenc =>
    obtain ⟨hbad, rfl⟩ | h := refused_of_descriptor_guard h
    · exact refusalListed_badDescriptor (by decide) hbad
    · exact absurd h raise_or_complete_ne_refused
  | fenc =>
    obtain ⟨hdst, rfl⟩ | h := refused_of_descriptor_guard h
    · exact refusalListed_badDescriptor (by decide) (Bool.and_eq_false_iff.2 (.inl hdst))
    obtain ⟨hpay, rfl⟩ | h := refused_of_descriptor_guard h
    · exact refusalListed_badDescriptor (by decide) (Bool.and_eq_false_iff.2 (.inr hpay))
    obtain ⟨hmeet, rfl⟩ | ⟨_, h⟩ := refused_of_refuse_guard h
    · exact And.intro rfl (rangesMeet_iff.1 hmeet)
    · exact absurd h raise_or_complete_ne_refused
  | odec =>
    obtain ⟨hbad, rfl⟩ | h := refused_of_descriptor_guard h
    · exact refusalListed_badDescriptor (by decide) hbad
    obtain ⟨⟨_, hown⟩, rfl⟩ | ⟨_, h⟩ := refused_of_refuse_guard h
    · exact Or.inl ⟨rfl, hown⟩
    · exact absurd h raise_or_complete_ne_refused
  | toown =>
    obtain ⟨hbad, rfl⟩ | h := refused_of_descriptor_guard h
    · exact refusalListed_badDescriptor (by decide) hbad
    obtain ⟨hown, rfl⟩ | ⟨_, h⟩ := refused_of_refuse_guard h
    · exact Or.inr (.inl ⟨rfl, hown⟩)
    · cases h

/-- Every word in 0x01 to 0x0B is a command's (R86). -/
theorem exists_decode_of_not_reserved {c : Byte} (h : 0x01 ≤ c.toNat ∧ c.toNat ≤ 0x0B) :
    ∃ i, decode .cmd8 [c] = .ok i := by
  have hall : ∀ k < 0x0C, 0x01 ≤ k → (decode .cmd8 [BitVec.ofNat 8 k]).toOption.isSome := by decide
  obtain ⟨hlow, hhigh⟩ := h
  obtain ⟨i, hi⟩ := Option.isSome_iff_exists.1 (hall c.toNat (Nat.lt_succ_of_le hhigh) hlow)
  rw [BitVec.ofNat_toNat, BitVec.setWidth_eq] at hi
  exact ⟨i, eq_ok_of_toOption hi⟩

/-- Issuing a word is refused for being reserved, or for what its command is refused for (R87, R146). -/
theorem issueCommand_refused {c : Byte} (h : issueCommand c s = .refused r) :
    refusalListed s (.wr 0x00 c.toNat) r := by
  by_cases hc : 0x01 ≤ c.toNat ∧ c.toNat ≤ 0x0B
  · obtain ⟨i, hdec⟩ := exists_decode_of_not_reserved hc
    obtain ⟨_, hformat, henc⟩ := encodeOfDecode _ _ _ hdec
    rw [issueCommand_of_decode hdec] at h
    have hlisted := exec_refused hformat h
    rwa [henc, natOfBytes_singleton] at hlisted
  · rw [issueCommand_reserved hc] at h
    cases h
    exact ⟨_, rfl, hc⟩

/-! ### The registers a host operation names -/

/-- A number that is not above 0x0E is some register's (R21, R90). -/
theorem exists_number_eq {n : Nat} (h : n ≤ 0x0E) : ∃ q : Reg, q.number = n := by
  have hall : ∀ k < 0x0F, (regOfNumber k).map Reg.number = some k := by decide
  obtain ⟨q, _, hq⟩ := Option.map_eq_some_iff.1 (hall n (Nat.lt_succ_of_le h))
  exact ⟨q, hq⟩

/-- The registers the host may only read (R21). -/
theorem number_mem_of_readOnly {q : Reg} (h : q.access = .readOnly) : q.number ∈ [0x01, 0x0B, 0x0C, 0x0D] := by
  cases q with
  | status | etClass | resLen | ownLen => decide
  | _ => cases h

/-- A register the host may write, other than CMD, is one it may read too (R21). -/
theorem access_readWrite {q : Reg} (hacc : q.access ≠ .readOnly) (hcmd : q ≠ .cmd) : q.access = .readWrite := by
  cases q with
  | cmd => exact absurd rfl hcmd
  | status | etClass | resLen | ownLen => exact absurd rfl hacc
  | _ => rfl

/-! ### Host operations -/

theorem hostWr_refused {n v : Nat} (h : hostWr n v s = .refused r) : refusalListed s (.wr n v) r := by
  by_cases hn : 0x0E < n
  · rw [hostWr_badRegister s v hn] at h
    cases h
    exact ⟨n, hn, .inr ⟨v, rfl⟩⟩
  obtain ⟨q, rfl⟩ := exists_number_eq (Nat.le_of_not_lt hn)
  by_cases hacc : q.access = .readOnly
  · rw [hostWr_readOnlyWrite s v hacc] at h
    cases h
    exact ⟨_, number_mem_of_readOnly hacc, v, rfl⟩
  by_cases hv : 2 ^ q.width s.params ≤ v
  · rw [hostWr_valueWidth s hacc hv] at h
    cases h
    exact ⟨q, v, rfl, hv⟩
  have hv := Nat.lt_of_not_le hv
  by_cases hcmd : q = .cmd
  · subst hcmd
    have hbyte : (BitVec.ofNat 8 v).toNat = v := Nat.mod_eq_of_lt hv
    rw [← hbyte] at h ⊢
    exact issueCommand_refused ((hostWr_cmd _ s).symm.trans h)
  · rw [hostWr_writeReg (regOfNumber_number q) (access_readWrite hacc hcmd) hv] at h
    cases h

theorem hostRd_refused {n : Nat} (h : hostRd n s = .refused r) : refusalListed s (.rd n) r := by
  by_cases hn : 0x0E < n
  · rw [hostRd_badRegister s hn] at h
    cases h
    exact ⟨n, hn, .inl rfl⟩
  obtain ⟨q, rfl⟩ := exists_number_eq (Nat.le_of_not_lt hn)
  by_cases hcmd : q = .cmd
  · subst hcmd
    cases h
    exact rfl
  · obtain ⟨v, hv⟩ := s.exists_readReg hcmd
    rw [hostRd_value s hv] at h
    cases h

theorem hostMr_refused {addr n : Nat} (h : hostMr addr n s = .refused r) : refusalListed s (.mr addr n) r := by
  cases hok : wellFormedRange s.params addr n with
  | false =>
    rw [hostMr_badDescriptor s hok] at h
    cases h
    exact Or.inr (.inr ⟨addr, n, rfl, hok⟩)
  | true =>
    rw [hostMr_reads s hok] at h
    cases h

theorem hostOload_refused {b : List Byte} (h : hostOload b s = .refused r) : refusalListed s (.oload b) r := by
  obtain ⟨hcap, rfl⟩ | ⟨_, h⟩ := refused_of_refuse_guard h
  · exact Or.inr (.inr ⟨b, rfl, hcap⟩)
  · cases h

theorem hostOwnRead_refused {i : Nat} (h : hostOwnRead i s = .refused r) : refusalListed s (.ownRead i) r := by
  cases hi : s.own[i]? with
  | none =>
    have hlen := List.getElem?_eq_none_iff.1 hi
    rw [hostOwnRead_ownIndex s hlen] at h
    cases h
    exact ⟨i, rfl, hlen⟩
  | some x =>
    rw [hostOwnRead_reads s hi] at h
    cases h

/-- Every host operation is refused only where the list has it (R158). -/
theorem hostStep_refused {op : HostOp} (h : hostStep op s = .refused r) : refusalListed s op r := by
  cases op with
  | wr => exact hostWr_refused h
  | rd => exact hostRd_refused h
  | mw addr b =>
    obtain ⟨hbad, rfl⟩ := hostMw_refused h
    exact Or.inr (.inl ⟨addr, b, rfl, hbad⟩)
  | mr => exact hostMr_refused h
  | oload => exact hostOload_refused h
  | ownRead => exact hostOwnRead_refused h
  | reset => cases h

/-! ### The list does not look at the script -/

theorem descriptorsOk_setScript (i : Instr) (s : State) (ops : List HostOp) :
    descriptorsOk i (s.setScript ops) = descriptorsOk i s := by
  cases i <;> rfl

theorem refusalListed_setScript (s : State) (ops : List HostOp) (op : HostOp) (r : Refusal) :
    refusalListed (s.setScript ops) op r ↔ refusalListed s op r := by
  cases r with
  | badDescriptor => simp only [refusalListed, descriptorsOk_setScript, State.setScript_params]
  | _ => exact Iff.rfl

end Sys2Proof.Machine

open Sys2Proof Sys2Proof.Machine

/-- Settles O51: the step performs the operation with it taken off the script, and each operation is refused only where
the list has it. -/
theorem refusalReasonsClosed : Obligations.RefusalReasonsClosed := by
  intro s op rest r hscript h
  rw [step_cons hscript] at h
  exact (refusalListed_setScript s rest op r).1 (hostStep_refused h)

end

section
/-! SUPPORT. No command's answer depends on content but in content: two states that differ in the header register,
HWIRE, M and the bytes of OWN answer alike but for these (R160). -/

namespace Sys2Proof.Machine

variable {s s' : State} {i : Instr}

/-- A state with other content: the header register, HWIRE, M and OWN replaced. -/
def State.setContent (s : State) (h : Header) (w : Wire) (m : Memory) (own : List Byte) : State :=
  { s with hDst := h.dst, hSrc := h.src, hEt := h.et, hwire := w, mem := m, own := own }

/-- A state with its content hidden: the header register, HWIRE and M, and OWN but for its length. -/
def State.blank (s : State) : State :=
  { s with hDst := 0#48, hSrc := 0#48, hEt := 0#16, hwire := 0#112, mem := [],
           own := List.replicate s.own.length 0#8 }

/-! ### What is hidden, and what is left -/

/-- States alike but for content have the same STATUS, RES_LEN, payload descriptor and length of OWN. -/
theorem State.report_of_blank_eq {t u : State} (h : u.blank = t.blank) :
    u.status = t.status ∧ u.resLen = t.resLen ∧ u.payBase = t.payBase ∧ u.payLen = t.payLen ∧
      u.own.length = t.own.length := by
  have hown : (List.replicate u.own.length 0#8).length = (List.replicate t.own.length 0#8).length :=
    congrArg (fun x : State => x.own.length) h
  exact ⟨(congrArg State.status h :), (congrArg State.resLen h :), (congrArg State.payBase h :),
    (congrArg State.payLen h :), by simpa using hown⟩

/-- Other content is hidden with the rest, where OWN keeps its length. -/
theorem State.blank_setContent (h : Header) (w : Wire) (m : Memory) {own : List Byte}
    (hown : own.length = s.own.length) : (s.setContent h w m own).blank = s.blank := by
  simp [State.blank, State.setContent, hown]

@[simp] theorem State.blank_setStatus (v : BitVec 8) : (s.setStatus v).blank = s.blank.setStatus v := rfl
@[simp] theorem State.blank_setResLen (n : Nat) : (s.setResLen n).blank = s.blank.setResLen n := rfl
@[simp] theorem State.blank_setPayBase (n : Nat) : (s.setPayBase n).blank = s.blank.setPayBase n := rfl
@[simp] theorem State.blank_setPayLen (n : Nat) : (s.setPayLen n).blank = s.blank.setPayLen n := rfl
@[simp] theorem State.blank_setHeader (h : Header) : (s.setHeader h).blank = s.blank := rfl
@[simp] theorem State.blank_setHwire (w : Wire) : (s.setHwire w).blank = s.blank := rfl
@[simp] theorem State.blank_setMem (m : Memory) : (s.setMem m).blank = s.blank := rfl
@[simp] theorem State.blank_storeFrame (b : List Byte) : (s.storeFrame b).blank = s.blank := rfl
@[simp] theorem State.blank_setOwn (b : List Byte) :
    (s.setOwn b).blank = s.blank.setOwn (List.replicate b.length 0#8) := rfl

@[simp] theorem State.setContent_srcBase (h : Header) (w : Wire) (m : Memory) (own : List Byte) :
    (s.setContent h w m own).srcBase = s.srcBase := rfl
@[simp] theorem State.setContent_srcLen (h : Header) (w : Wire) (m : Memory) (own : List Byte) :
    (s.setContent h w m own).srcLen = s.srcLen := rfl
@[simp] theorem State.setContent_payLen (h : Header) (w : Wire) (m : Memory) (own : List Byte) :
    (s.setContent h w m own).payLen = s.payLen := rfl

/-! ### Answers with their content hidden -/

/-- Where a guard asks the same of two states, the answers agree but for content once both branches' do. -/
theorem mapNext_blank_guard {p q : Prop} [Decidable p] [Decidable q] {x y x' y' : Result} (hguard : q ↔ p)
    (hx : mapNext .blank x' = mapNext .blank x) (hy : mapNext .blank y' = mapNext .blank y) :
    mapNext .blank (if q then x' else y') = mapNext .blank (if p then x else y) := by
  rw [apply_ite (mapNext _), apply_ite (mapNext _), hx, hy]
  exact if_congr hguard rfl rfl

theorem mapNext_blank_raise (c : Condition) (h : s'.blank = s.blank) :
    mapNext .blank (raise c s') = mapNext .blank (raise c s) := by
  simp [mapNext, h]

theorem mapNext_blank_complete {n n' : Nat} (hn : n' = n) (h : s'.blank = s.blank) :
    mapNext .blank (complete n' s') = mapNext .blank (complete n s) := by
  simp [mapNext, hn, h]

/-- Every command answers two states that differ in content alike but for content: no guard looks at content, and OWN's
length is all of it that a length is made of (R160). -/
theorem exec_setContent (hformat : i.format = .cmd8) (h : Header) (w : Wire) (m : Memory) {own : List Byte}
    (hown : own.length = s.own.length) :
    mapNext .blank (exec i (s.setContent h w m own)) = mapNext .blank (exec i s) := by
  have hblank : (s.setContent h w m own).blank = s.blank := State.blank_setContent h w m hown
  have hlen : hdrLen + own.length = hdrLen + s.own.length := by rw [hown]
  cases i with
  | eth2Header | eth2Frame | etypeIpv6 | etypeUnknown => cases hformat
  | hdec14 | henc14 | flen => exact mapNext_blank_complete rfl (by simp [hblank])
  | olen => exact mapNext_blank_complete hlen hblank
  | hdec | henc | fdec =>
    exact mapNext_blank_guard .rfl rfl <| mapNext_blank_guard .rfl (mapNext_blank_raise _ hblank)
      (mapNext_blank_complete rfl (by simp [hblank]))
  | fenc =>
    exact mapNext_blank_guard .rfl rfl <| mapNext_blank_guard .rfl rfl <| mapNext_blank_guard .rfl rfl <|
      mapNext_blank_guard .rfl (mapNext_blank_raise _ hblank) (mapNext_blank_complete rfl (by simp [hblank]))
  | odec =>
    exact mapNext_blank_guard .rfl rfl <| mapNext_blank_guard .rfl rfl <|
      mapNext_blank_guard .rfl (mapNext_blank_raise _ hblank) (mapNext_blank_complete rfl (by simp [hblank]))
  | oenc =>
    have hcap : s.dstCap < hdrLen + own.length ↔ s.dstCap < hdrLen + s.own.length := by rw [hown]
    exact mapNext_blank_guard .rfl rfl <| mapNext_blank_guard hcap (mapNext_blank_raise _ hblank)
      (mapNext_blank_complete hlen (by simp [hblank]))
  | toown =>
    exact mapNext_blank_guard .rfl rfl <| mapNext_blank_guard .rfl rfl (by simp [mapNext, hblank])

/-- Only a refusal is mapped to a refusal. -/
theorem refused_of_mapNext {f : State → State} {x : Result} {r : Refusal} (h : mapNext f x = .refused r) :
    x = .refused r := by
  cases x with
  | refused q => exact h
  | next | fault => cases h

/-- Only a next state is mapped to a next state. -/
theorem next_of_mapNext {f : State → State} {x : Result} {t : State} (h : mapNext f x = .next t) :
    ∃ u, x = .next u ∧ f u = t := by
  cases x with
  | next u => exact ⟨u, rfl, Host.Outcome.next.inj h⟩
  | fault | refused => cases h

end Sys2Proof.Machine

open Sys2Proof Sys2Proof.Machine

/-- Settles O52: with content hidden the two answers are the same, so both are refused alike or both answer states alike
but for content. -/
theorem contentIsNeverAnError : Obligations.ContentIsNeverAnError := by
  intro i s h w m own hformat hown
  have hcontent : mapNext .blank (exec i (s.setContent h w m own)) = mapNext .blank (exec i s) :=
    exec_setContent hformat h w m hown
  refine ⟨fun r hr => ?_, fun t ht => ?_⟩
  · rw [hr] at hcontent
    exact refused_of_mapNext hcontent
  · rw [ht] at hcontent
    obtain ⟨u, hu, hut⟩ := next_of_mapNext hcontent
    exact ⟨u, hu, State.report_of_blank_eq hut⟩
end
